-- ==== Sys2Proof/Word.lean ====
section
/-! DEFINITION. The two kinds of bit string the spec moves as bits: the bytes of frames and records
(11_frame_and_record_layouts.md) and the nine-bit characters of the mailing line (R130). Everything else the
spec counts or names is a `Nat`, a `Fin` or an inductive type. -/

namespace Sys2Proof

/-- A byte of a frame, record or block. -/
abbrev Byte := BitVec 8

/-- A character of the mailing line: bit 8 marks an address character (R130, section 11.5). -/
abbrev LineChar := BitVec 9

/-- The number of a cartridge bay, 0..15 (section 5.1). -/
abbrev BayNo := Fin 16

/-- A route code, 0..31 (section 7.5). -/
abbrev RouteNo := Fin 32

end Sys2Proof
end

