-- ==== Sys2Proof/Config.lean ====
section
/-! DEFINITION. The limits of the part: the numbers the rules give, each under a name. Nothing of the part is
implementation-defined; no free value is needed. -/

namespace Sys2Proof.Config

/-- Most title records in the Title Directory (R1). -/
def maxTitles : Nat := 4096
/-- Slots of the Patron Table (R25). -/
def slots : Nat := 16384
/-- Most loan records in the Loan Table (R41). -/
def maxLoans : Nat := 32768
/-- Highest loan tag (R41). -/
def maxTag : Nat := 1048575
/-- Highest patron number (section 2.1). -/
def maxPatronNumber : Nat := 9999999
/-- Highest allowance; a value above is taken as it (R26). -/
def maxAllowance : Nat := 6
/-- Most titles in a want list (R32). -/
def maxWants : Nat := 24
/-- Most copies owned of a volume title (R19). -/
def maxCopies : Nat := 63
/-- Extents of the title store (section 1.3). -/
def extents : Nat := 65536
/-- Blocks of one extent (section 1.3). -/
def extentBlocks : Nat := 64
/-- Bytes of one block (00_scope.md section 4). -/
def blockBytes : Nat := 4096
/-- Highest value of the day count (R58). -/
def maxDay : Nat := 65535
/-- Most jobs in the copy queue (R74, R87). -/
def maxJobs : Nat := 24
/-- Most jobs in the line job queue (R137). -/
def maxLineJobs : Nat := 16
/-- Most requests in a posted queue (R171). -/
def maxPosted : Nat := 32
/-- Most entries in a delayed queue (R174). -/
def maxDelayed : Nat := 8
/-- Most notices in a notice queue (R178). -/
def maxNotices : Nat := 64
/-- Units the write queue holds before events wait (R188). -/
def maxUnits : Nat := 128
/-- Milliseconds within which record memory acknowledges (R188, R189). -/
def recordAnswerTime : Nat := 50
/-- Milliseconds of the eject pulse (R106). -/
def ejectPulseTime : Nat := 200
/-- Largest capacity counted, in blocks (R76). -/
def capacityClamp : Nat := 4194304
/-- Smallest capacity taken, in blocks (R76). -/
def minCapacity : Nat := 4096
/-- Blocks of the index region (section 4.4). -/
def indexBlocks : Nat := 16
/-- Largest payload a header may announce (R195). -/
def maxPayload : Nat := 4098
/-- Modulus of the two partial image sums (R114). -/
def sumModulus : Nat := 65535
/-- The address of a mailing line broadcast (R130). -/
def broadcast : Nat := 31

end Sys2Proof.Config
end

