-- ==== Sys2Proof/Machine/Bytes.lean ====
section
/-! DEFINITION. Bytes and numbers: section 11's byte order, most significant byte first. -/

namespace Sys2Proof.Machine

/-- The number that bytes spell, most significant byte first (section 11). -/
def natOfBytes (bs : List Byte) : Nat :=
  bs.foldl (fun acc b => acc * 256 + b.toNat) 0

/-- The `n` low bytes of a number, most significant byte first (section 11). -/
def bytesOfNat : Nat → Nat → List Byte
  | 0, _ => []
  | n + 1, v => BitVec.ofNat 8 (v / 256 ^ n) :: bytesOfNat n v

/-- The sum of bytes. -/
def byteSum (bs : List Byte) : Nat :=
  bs.foldl (fun acc b => acc + b.toNat) 0

/-- The bytes from position `i`, `n` of them. -/
def slice (i n : Nat) (bs : List Byte) : List Byte :=
  (bs.drop i).take n

/-- A list of bytes filled up with zero bytes to `n`. -/
def padTo (n : Nat) (bs : List Byte) : List Byte :=
  bs ++ List.replicate (n - bs.length) 0

/-- Yes is 1 and no is 0 (R195). -/
def yesNo (b : Bool) : Nat :=
  if b then 1 else 0

end Sys2Proof.Machine
end

