-- ==== Sys2Proof/Machine/Table.lean ====
section
/-! DEFINITION. Keyed tables: the Title Directory, the Patron Table, the Loan Table, the settings and the title
store's blocks are lists of (key, entry) in rising key order, each key once. -/

namespace Sys2Proof.Machine

/-- A table of entries keyed by number. -/
abbrev Table (α : Type) := List (Nat × α)

/-- The entry under a key. -/
def Table.find {α : Type} (k : Nat) : Table α → Option α
  | [] => none
  | (j, a) :: t => if j = k then some a else Table.find k t

/-- Put an entry under a key, in its place. -/
def Table.set {α : Type} (k : Nat) (a : α) : Table α → Table α
  | [] => [(k, a)]
  | (j, b) :: t =>
    if k < j then (k, a) :: (j, b) :: t
    else if k = j then (k, a) :: t
    else (j, b) :: Table.set k a t

/-- Take the entry under a key away. -/
def Table.erase {α : Type} (k : Nat) : Table α → Table α
  | [] => []
  | (j, b) :: t => if j = k then t else (j, b) :: Table.erase k t

/-- Keys strictly rising: the canonical form. -/
def Table.sorted {α : Type} : Table α → Bool
  | [] => true
  | [_] => true
  | (j, _) :: (k, b) :: t => decide (j < k) && Table.sorted ((k, b) :: t)

/-- The first entry whose key is above `k`. -/
def Table.above {α : Type} (k : Nat) : Table α → Option (Nat × α)
  | [] => none
  | (j, a) :: t => if k < j then some (j, a) else Table.above k t

/-- The lowest number from `k` on that is no key (the table in rising order). -/
def Table.freeKey {α : Type} (k : Nat) : Table α → Nat
  | [] => k
  | (j, _) :: t => if j = k then Table.freeKey (k + 1) t else Table.freeKey k t

end Sys2Proof.Machine
end

