-- ==== Sys2Proof/Syntax.lean ====
section
/-! DEFINITION. The commands of the part: one constructor of `Instr` for each row of spec/opcode_table.json,
with the operands the rules give it. -/

namespace Sys2Proof

/-- The two service ports (R168). -/
inductive Port
  | cp
  | fp
  deriving DecidableEq, Repr

/-- The two copy channels (section 6.2). -/
inductive Chan
  | a
  | b
  deriving DecidableEq, Repr

/-- The request codes of the code table (section 11.1). -/
inductive ReqCode
  | takeNotice
  | portStatus
  | portReset
  | defineTitle
  | stageBegin
  | stageBlock
  | retireTitle
  | addCopies
  | removeCopy
  | enrolPatron
  | amendPatron
  | removePatron
  | addWant
  | dropWant
  | cancelLoan
  | declareLost
  | advanceDay
  | selectNow
  | formatRecords
  | picked
  | pickFailed
  | shelve
  | withdrawCopy
  | ejectBay
  | containItem
  | pingStation
  | bagReplaced
  | routeOff
  | routeOn
  | rejectContainer
  | setParameter
  | titleQuery
  | patronQuery
  | loanQuery
  | channelQuery
  | stationQuery
  | binQuery
  | parameterQuery
  deriving DecidableEq, Repr

/-- What a request frame carries beside its code: the port it is taken on, the header's key field and the payload
(R168, section 11.1). -/
structure Frame where
  port    : Port
  key     : BitVec 24
  payload : List Byte
  deriving DecidableEq, Repr

/-- The commands, in the table's order. For a posted request, `atOnce` says whether, as the head of its queue,
it is handed over and taken by its block (R172) in the event that accepts it (log entry 5). -/
inductive Instr
  | partReset
  | formatMarkRead (answered : Bool)
  | recordLoadComplete (ok : Bool)
  | recordsReady
  | unitWriteComplete (equal : Bool) (pick : Nat)
  | unitWriteAckTimeout
  | overdueScanVisit
  | exchangeVoid (p : Port)
  | replyEnd (p : Port)
  | malformedHeader (p : Port) (header : List Byte)
  | unknownRequestCode (f : Frame) (code : Byte)
  | takeNotice (f : Frame)
  | portStatus (f : Frame)
  | portReset (f : Frame)
  | portResetLine (p : Port)
  | postedApplicationStart (p : Port)
  | defineTitle (f : Frame) (atOnce : Bool)
  | stageBegin (f : Frame) (atOnce : Bool)
  | stageBlock (f : Frame) (atOnce : Bool)
  | storeTransferComplete
  | stagingWriteComplete
  | stagingIdleExpiry (title : Nat)
  | retireTitle (f : Frame) (atOnce : Bool)
  | withdrawalWalkStep
  | addCopies (f : Frame) (atOnce : Bool)
  | removeCopy (f : Frame) (atOnce : Bool)
  | enrolPatron (f : Frame) (atOnce : Bool)
  | amendPatron (f : Frame) (atOnce : Bool)
  | removePatron (f : Frame) (atOnce : Bool)
  | addWant (f : Frame) (atOnce : Bool)
  | dropWant (f : Frame) (atOnce : Bool)
  | restoration (pick : Nat)
  | loansOutDecrease (pick : Nat)
  | cancelLoan (f : Frame) (atOnce : Bool)
  | declareLost (f : Frame) (atOnce : Bool)
  | advanceDay (f : Frame) (atOnce : Bool)
  | selectNow (f : Frame) (atOnce : Bool)
  | selectionVisit
  | formatRecords (f : Frame) (atOnce : Bool)
  | picked (f : Frame) (atOnce : Bool)
  | pickFailed (f : Frame) (atOnce : Bool)
  | shelve (f : Frame) (atOnce : Bool)
  | withdrawCopy (f : Frame) (atOnce : Bool)
  | ejectBay (f : Frame) (atOnce : Bool)
  | latchEjectPulseEnd (b : BayNo)
  | containItem (f : Frame) (atOnce : Bool)
  | pingStation (f : Frame) (atOnce : Bool)
  | bagReplaced (f : Frame) (atOnce : Bool)
  | routeOff (f : Frame) (atOnce : Bool)
  | routeOn (f : Frame) (atOnce : Bool)
  | rejectContainer (f : Frame) (atOnce : Bool)
  | setParameter (f : Frame) (atOnce : Bool)
  | titleQuery (f : Frame)
  | patronQuery (f : Frame)
  | loanQuery (f : Frame)
  | channelQuery (f : Frame)
  | stationQuery (f : Frame)
  | binQuery (f : Frame)
  | parameterQuery (f : Frame)
  | delayedEntryStart (p : Port)
  | delayedResultComplete (p : Port) (code : ReqCode) (key : Nat)
  | discardTimerExpiry (p : Port) (code : ReqCode) (key : Nat)
  | bayPresenceOn (b : BayNo)
  | bayPresenceOff (b : BayNo)
  | identityRecordReceived (b : BayNo) (record : List Byte)
  | identifyStallExpiry (b : BayNo)
  | eraseReadyRise (b : BayNo)
  | eraseTimeLimitExpiry (b : BayNo)
  | eraseRereadReceived (b : BayNo) (record : List Byte)
  | eraseRereadStallExpiry (b : BayNo)
  | rehomeTimerExpiry (tag : Nat)
  | lampChainSendEnd
  | headerWriteEnd (c : Chan)
  | channelStoreReadComplete (c : Chan) (damaged : Option (List Byte))
  | imageBlockWriteEnd (c : Chan)
  | indexBlockWriteEnd (c : Chan)
  | verifyBlockReadEnd (c : Chan) (block : List Byte)
  | writeTagEnd (c : Chan)
  | drainConfirmation (c : Chan)
  | cartridgeStallExpiry (c : Chan)
  | retryEraseEnd (c : Chan)
  | retryEraseLimitExpiry (c : Chan)
  | labelAnswer (chars : List LineChar)
  | gateAnswer (chars : List LineChar)
  | pingAnswer (chars : List LineChar)
  | answerTimeExpiry
  | lineAnswerDiscarded (chars : List LineChar)
  | broadcastQuietEnd
  | closeTimerExpiry (r : RouteNo)
  | returnsPresenceRise
  | returnsPresenceFall
  | readTagAnswer (answer : List Byte)
  | tagReadTimerExpiry
  | dwellTimerExpiry
  | dropoutTimerExpiry
  | clearTimerExpiry
  | departureTimerExpiry
  | exchangeEnd (p : Port)
  | portResetLineRelease (p : Port)
  | lineCommandEnd
  | cartridgeReadyRise (b : BayNo)
  deriving DecidableEq, Repr

end Sys2Proof
end

