-- ==== Sys2Proof/Machine/State.lean ====
section
/-! DEFINITION. The state of the part as plain data, block by block (00_scope.md section 2), and the state after part
reset. Names are those of the chapters' field tables. A timer is the time, on the Service Clock's millisecond count, at
which it expires; `none` is a stopped timer. -/

namespace Sys2Proof.Machine

/-! ### Titles (01) -/

/-- An image sum: S1 and S2, each 0..65,534 (R114). -/
structure ImageSum where
  s1 : Nat
  s2 : Nat
  deriving DecidableEq, Repr

/-- A stretch of extents: first extent and extent count (section 1.1). -/
structure Run where
  first : Nat
  count : Nat
  deriving DecidableEq, Repr

inductive Kind
  | audio
  | brailleFile
  deriving DecidableEq, Repr

/-- The states of a CARTRIDGE title (section 1.2). -/
inductive TitleState
  | absent
  | staging
  | resident
  | retiring
  | damaged
  deriving DecidableEq, Repr

/-- The fields of a CARTRIDGE title (section 1.1) with its idle timer (R11). -/
structure CartTitle where
  kind       : Kind
  length     : Nat
  declared   : ImageSum
  state      : TitleState
  run1       : Option Run
  run2       : Option Run
  received   : Nat
  stagingSum : ImageSum
  pins       : Nat
  lastUse    : Nat
  idleTimer  : Option Nat
  deriving DecidableEq, Repr

/-- The fields of a VOLUME_SET title (section 1.1). -/
structure VolTitle where
  owned    : Nat
  onShelf  : Nat
  location : Nat
  volumes  : Nat
  deriving DecidableEq, Repr

inductive TitleBody
  | cart (c : CartTitle)
  | vol (v : VolTitle)
  deriving DecidableEq, Repr

/-- A title record; its number is its key (section 1.1). -/
structure Title where
  withdrawing : Bool
  body        : TitleBody
  deriving DecidableEq, Repr

/-- What a DEFINE TITLE carries for its medium (R2). -/
inductive TitleDef
  | cart (kind : Kind) (length : Nat) (declared : ImageSum)
  | vol (location volumes : Nat)
  deriving DecidableEq, Repr

/-- Who may ask for the store access path (R12). -/
inductive Requester
  | staging
  | chanA
  | chanB
  deriving DecidableEq, Repr

/-- The block the staging writer holds: its title, its store block and its bytes (R9). `transferred` says its transfer
has ended, its completion not yet reported (log entry 16). -/
structure StagedBlock where
  title       : Nat
  storeBlock  : Nat
  bytes       : List Byte
  transferred : Bool
  deriving DecidableEq, Repr

/-- The withdrawal walk in progress (R35). -/
structure Walk where
  title   : Nat
  next    : Nat
  changed : Nat
  deriving DecidableEq, Repr

/-! ### Patrons (02) -/

/-- A reader record; its slot is its key (section 2.1). -/
structure Patron where
  number      : Nat
  allowance   : Nat
  loansOut    : Nat
  returnsOpen : Nat
  route       : RouteNo
  hold        : Bool
  wants       : List Nat
  deriving DecidableEq, Repr

/-- A restoration request handed over by the Loan Table (R36). -/
structure Restoration where
  patron : Nat
  titles : List Nat
  deriving DecidableEq, Repr

/-! ### Loans (03) -/

inductive LoanMedium
  | cartridge
  | volume
  deriving DecidableEq, Repr

/-- The states of a loan (section 3.2). -/
inductive LoanState
  | planned
  | copying
  | written
  | picked
  | bagged
  | mailed
  | overdue
  | returning
  deriving DecidableEq, Repr

/-- An entry of a loan's title list (section 3.1). -/
structure PlanEntry where
  title  : Nat
  offset : Nat
  length : Nat
  deriving DecidableEq, Repr

/-- A loan record; its tag is its key (section 3.1). -/
structure Loan where
  patron    : Nat
  medium    : LoanMedium
  state     : LoanState
  titles    : List PlanEntry
  planTotal : Nat
  bay       : Option BayNo
  serial    : Option Nat
  period    : Nat
  planDay   : Nat
  shipDay   : Option Nat
  dueDay    : Option Nat
  route     : Option RouteNo
  deriving DecidableEq, Repr

/-- The overdue scan in progress: the last tag visited (0 before the first) and whether it waits at a full notice
queue (R60). -/
structure Scan where
  cursor  : Nat
  waiting : Bool
  deriving DecidableEq, Repr

/-! ### Selection (04) -/

/-- The Selection Engine's state (section 4.1). `next` is none at the end of the pass. -/
structure Engine where
  passing   : Bool
  cursor    : Nat
  again     : Bool
  start     : Nat
  next      : Option Nat
  shipments : Nat
  endedFull : Bool
  deriving DecidableEq, Repr

/-! ### Bays (05) -/

inductive BayState
  | empty
  | identifying
  | blank
  | reserved
  | writing
  | verifying
  | tagging
  | written
  | erasing
  | rejected
  deriving DecidableEq, Repr

inductive RejectReason
  | unsuited
  | worn
  | eraseFault
  | writeFault
  deriving DecidableEq, Repr

inductive Content
  | blank
  | recorded
  deriving DecidableEq, Repr

/-- A cartridge's identity record (section 5.3). -/
structure Identity where
  serial   : Nat
  capacity : Nat
  wear     : Nat
  content  : Content
  tagArea  : Nat
  deriving DecidableEq, Repr

/-- The Bay Controller's own commands on a cartridge line: the reading of a newly seated cartridge, the erase, and the
re-read after it (R93, R97, R98). -/
inductive BayCommand
  | readIdentity
  | erase
  | reread
  deriving DecidableEq, Repr

/-- A bay record (section 5.1), with the Bay Controller's command on its line and that command's time limit, the eject
pulse (R106), and the levels of its presence switch and ready line. -/
structure Bay where
  state          : BayState
  reject         : Option RejectReason
  identity       : Option Identity
  clamped        : Nat
  usable         : Nat
  tag            : Option Nat
  releasePending : Bool
  eraseStarted   : Bool
  command        : Option (BayCommand × Nat)
  ejectPulse     : Option Nat
  presence       : Bool
  ready          : Bool
  deriving DecidableEq, Repr

/-- The lamp chain: the 32 bits of the send in progress, and whether one further send is due (R91). -/
structure LampChain where
  sending : Option (BitVec 32)
  again   : Bool
  deriving DecidableEq, Repr

/-! ### Copy queue and channels (06) -/

/-- A copy job (section 6.1) with its re-home timer (R101). -/
structure Job where
  tag      : Nat
  bay      : Option BayNo
  attempts : Nat
  holder   : Option Chan
  rehome   : Option Nat
  deriving DecidableEq, Repr

inductive ChanState
  | idle
  | header
  | image
  | index
  | verify
  | tagging
  | draining
  | retryErase
  deriving DecidableEq, Repr

inductive StopCause
  | cancel
  | removal
  deriving DecidableEq, Repr

/-- A run descriptor set: begin, end, now and extent count (R111). -/
structure RunSet where
  first : Nat
  last  : Nat
  now   : Nat
  count : Nat
  deriving DecidableEq, Repr

/-- The commands a channel sends on a cartridge line (section 6.5). -/
inductive CartCommand
  | writeBlock (block : Nat) (bytes : List Byte)
  | readBlock (block : Nat)
  | writeTag (tag : Nat)
  | drain
  | erase
  deriving DecidableEq, Repr

/-- What a channel waits for: nothing; the grant of a store read; the end of a granted read (`transferred` once the
arbiter has seen its end); ready to rise before a command that came due can be sent; or the end of a command sent.
A command's time limit runs from the moment it is due (R116). -/
inductive Activity
  | none
  | storeRequest
  | storeRead (transferred : Bool)
  | commandDue (cmd : CartCommand) (limit : Nat)
  | commandSent (cmd : CartCommand) (limit : Nat)
  deriving DecidableEq, Repr

/-- A copy channel's state and job context (R111). `second` says that set 2 is in use. -/
structure Channel where
  state     : ChanState
  tag       : Option Nat
  bay       : Option BayNo
  titles    : List PlanEntry
  index     : Nat
  set1      : RunSet
  set2      : RunSet
  second    : Bool
  sum       : ImageSum
  block     : Nat
  attempts  : Nat
  stopping  : Bool
  stopCause : Option StopCause
  activity  : Activity
  deriving DecidableEq, Repr

/-! ### Mailing line (07) -/

inductive StationState
  | unused
  | online
  | offline
  deriving DecidableEq, Repr

/-- What a line job is for (section 7.3). -/
inductive LineJobKind
  | contain (tag : Nat)
  | ping (station : Nat)
  | home
  deriving DecidableEq, Repr

inductive LineStage
  | waiting
  | label
  | gate
  | ping
  | quiet
  deriving DecidableEq, Repr

/-- A line job (section 7.3). -/
structure LineJob where
  kind  : LineJobKind
  route : Option RouteNo
  stage : LineStage
  deriving DecidableEq, Repr

/-- The four commands of the mailing line (R131). -/
inductive LineCommand
  | label
  | gate
  | gatesHome
  | ping
  deriving DecidableEq, Repr

/-- Where a mailing line command stands: its characters going out, its answer awaited, or the line held quiet after a
broadcast (R132). -/
inductive LinePhase
  | sending
  | awaiting (limit : Nat)
  | quiet (limit : Nat)
  deriving DecidableEq, Repr

/-- The command on the mailing line: how often it has been sent, and the line retries read when its first sending
ended (R132). -/
structure LineSend where
  command : LineCommand
  station : Nat
  chars   : List LineChar
  sent    : Nat
  retries : Option Nat
  phase   : LinePhase
  deriving DecidableEq, Repr

inductive BinState
  | open
  | closed
  | off
  deriving DecidableEq, Repr

/-- A route bin (section 7.5); its settings stand among the settings. -/
structure Bin where
  state      : BinState
  list       : List Nat
  closeTimer : Option Nat
  deriving DecidableEq, Repr

/-! ### Returns station (08) -/

inductive Stage
  | idle
  | sensed
  | tagRead
  | settled
  | accepted
  deriving DecidableEq, Repr

/-- The Returns Recognizer's record (section 8.1). `gapStart` is the time of the fall that began the gap in progress,
meaningful while the dropout timer runs. -/
structure Recognizer where
  stage           : Stage
  presence        : Bool
  tag             : Option Nat
  patron          : Option Nat
  readOutstanding : Bool
  dwellMet        : Bool
  gapCount        : Nat
  longestGap      : Nat
  falseDepartures : Nat
  gapStart        : Nat
  tagReadTimer    : Option Nat
  dwellTimer      : Option Nat
  dropoutTimer    : Option Nat
  clearTimer      : Option Nat
  departureTimer  : Option Nat
  deriving DecidableEq, Repr

/-! ### Ports (09) -/

/-- The start-up condition both ports report (R184). -/
inductive Mode
  | starting
  | unformatted
  | ready
  deriving DecidableEq, Repr

/-- The reason codes, in the order section 11.1 numbers them. -/
inductive Reason
  | unknownTitle
  | unknownPatron
  | unknownLoan
  | duplicate
  | tableFull
  | listFull
  | onLoan
  | notFound
  | wrongState
  | tooLate
  | pinned
  | storeFull
  | badBlockIndex
  | copiesLimit
  | loansOut
  | reserved
  | busy
  | binClosed
  | lineBusy
  | labelFault
  | stationOffline
  | notEmpty
  | notFormatted
  | wrongPort
  | malformed
  | unknownCode
  | sum
  | idle
  | damaged
  | rehome
  | returned
  | shelved
  | withdrawn
  | lost
  | pickFailed
  | unsuited
  | worn
  | eraseFault
  | writeFault
  | noTag
  | unknownTag
  | notOut
  | bounce
  | stuck
  | rejected
  deriving DecidableEq, Repr

/-- The notices, in the order of the routing table (section 9.5). -/
inductive NoticeKind
  | titleResident
  | stageFailed
  | titleEvicted
  | titleDamaged
  | wantDropped
  | shipmentPlanned
  | cancelled
  | loanClosed
  | overdue
  | pick
  | reshelve
  | cartridgeWritten
  | bayPulled
  | bayRejected
  | stationOffline
  | returnUnread
  | copyFailed
  | bagReleased
  | returnAccepted
  | started
  | refused
  | resultDiscarded
  deriving DecidableEq, Repr

/-- A notice record (section 9.5). A named value among the extra values stands as its number (R195). -/
structure Notice where
  kind   : NoticeKind
  key    : Nat
  reason : Option Reason
  values : List Nat
  deriving DecidableEq, Repr

/-- A posted request as the posted queue holds it: what its code, key and payload say (R171). -/
inductive PostedReq
  | defineTitle (title : Nat) (d : TitleDef)
  | stageBegin (title : Nat)
  | stageBlock (title index : Nat) (bytes : List Byte)
  | retireTitle (title : Nat)
  | addCopies (title count : Nat)
  | removeCopy (title : Nat)
  | enrolPatron (number allowance : Nat) (route : RouteNo) (hold : Bool)
  | amendPatron (number allowance : Nat) (route : RouteNo) (hold : Bool)
  | removePatron (number : Nat)
  | addWant (number title : Nat) (front : Bool)
  | dropWant (number title : Nat)
  | cancelLoan (tag : Nat)
  | declareLost (tag : Nat)
  | advanceDay
  | selectNow
  | formatRecords
  | picked (tag : Nat)
  | pickFailed (tag : Nat)
  | shelve (tag : Nat)
  | withdrawCopy (tag : Nat)
  | ejectBay (bay : BayNo)
  | containItem (tag : Nat)
  | pingStation (station : Nat)
  | bagReplaced (route : RouteNo)
  | routeOff (route : RouteNo)
  | routeOn (route : RouteNo)
  | rejectContainer
  | setParameter (number value : Nat)
  deriving DecidableEq, Repr

/-- The result fields of a CHANNEL QUERY (R129). -/
structure ChannelView where
  state       : ChanState
  stopping    : Bool
  stopCause   : Option StopCause
  tag         : Option Nat
  bay         : Option BayNo
  index       : Nat
  title       : Option Nat
  setInUse    : Nat
  first       : Nat
  last        : Nat
  now         : Nat
  count1      : Nat
  count2      : Nat
  block       : Nat
  attempts    : Nat
  deriving DecidableEq, Repr

/-- The result fields of a BIN QUERY (R150). -/
structure BinView where
  state        : BinState
  list         : List Nat
  triggerLevel : Nat
  closeTimeout : Nat
  timerLeft    : Option Nat
  gateStation  : Nat
  gateOutput   : Nat
  stationState : StationState
  deriving DecidableEq, Repr

/-- The result of a delayed request: status NOT_FOUND, or OK with the query's fields (R176). -/
inductive QueryResult
  | notFound
  | title (t : Title)
  | patron (slot : Nat) (p : Patron)
  | loan (tag : Nat) (l : Loan)
  | channel (v : ChannelView)
  | station (state : StationState) (isLabel : Bool) (routes : List Nat)
  | bin (v : BinView)
  | parameter (value low high default : Nat) (port : Port)
  deriving DecidableEq, Repr

/-- The result of a PORT STATUS (R181). -/
structure StatusResult where
  mode      : Mode
  posted    : Nat
  head      : Option ReqCode
  delayed   : Nat
  completed : Nat
  notices   : Nat
  overflow  : Bool
  day       : Nat
  deriving DecidableEq, Repr

/-- The reply of an exchange (R168). -/
inductive Reply
  | accepted
  | busy
  | retry
  | refused (r : Reason)
  | doneQuery (r : QueryResult)
  | doneNotice (n : Option Notice) (overflow : Bool) (remaining : Nat)
  | doneStatus (r : StatusResult)
  | doneReset
  deriving DecidableEq, Repr

/-- What the end of a reply hands over (R169): nothing; the notice given (none given when the queue was empty) with the
clearing of the overflow mark; or a COMPLETE delayed entry. -/
inductive HandOver
  | none
  | notice (given : Bool)
  | entry (code : ReqCode) (key : Nat)
  deriving DecidableEq, Repr

/-- The exchange in progress on a port: its reply, what the end of the reply hands over, and whether that end has
come. -/
structure Exchange where
  reply    : Reply
  handOver : HandOver
  ended    : Bool
  deriving DecidableEq, Repr

/-- The condition of a delayed entry (section 9 field table). An EXECUTING entry's result is on its way to the Port
Unit; a COMPLETE entry's discard timer runs. -/
inductive Condition
  | waiting
  | executing (r : QueryResult)
  | complete (r : QueryResult) (discard : Nat)
  deriving DecidableEq, Repr

/-- A delayed queue entry. The posted mark names the youngest posted request at the entry's making; it is kept as the
number of posted requests that must still leave the queue for that request to have left, 0 once the mark is clear. -/
structure Delayed where
  code      : ReqCode
  key       : Nat
  condition : Condition
  mark      : Nat
  deriving DecidableEq, Repr

/-- A Port Unit (section 9 field table): `applying` says that the head of the posted queue has been handed to its owning
block and is in application, `handed` that the block has yet to take it (R172, log entry 5). -/
structure PortUnit where
  posted    : List PostedReq
  applying  : Bool
  handed    : Bool
  delayed   : List Delayed
  notices   : List Notice
  overflow  : Bool
  exchange  : Option Exchange
  resetLine : Bool
  deriving DecidableEq, Repr

/-! ### Record memory (10) -/

/-- What record memory keeps of a route bin (R143). -/
structure BinRecord where
  state : BinState
  list  : List Nat
  deriving DecidableEq, Repr

/-- One change of one record, with the record as it stands in the event that hands it (R187); `none` is an erasure.
`formatTables` is the writing of every table empty, every setting at its default, the next-tag counter at 1 and the day
count at 0 (R191). -/
inductive Change
  | title (number : Nat) (t : Option Title)
  | patron (slot : Nat) (p : Option Patron)
  | loan (tag : Nat) (l : Option Loan)
  | nextTag (tag : Nat)
  | bin (route : RouteNo) (b : BinRecord)
  | setting (number value : Nat)
  | day (d : Nat)
  | mark (bytes : List Byte)
  | formatTables
  deriving DecidableEq, Repr

/-- A unit: written whole or not at all (R187). -/
abbrev WriteUnit := List Change

/-- The contents of record memory (section 10.1). -/
structure RecordMemory where
  mark     : List Byte
  settings : Table Nat
  day      : Nat
  titles   : Table Title
  patrons  : Table Patron
  loans    : Table Loan
  nextTag  : Nat
  bins     : Vector BinRecord 32
  deriving DecidableEq, Repr

/-- How far the start-up of R189 to R191 has come. -/
inductive Startup
  | readingMark (limit : Nat)
  | loading
  | reconciled
  | formatting
  | formatted
  | settled
  deriving DecidableEq, Repr

/-! ### Outcomes -/

/-- The faults of a step. The spec names no event that stops the part (its faults are effects on records and
notices), so there is none. -/
inductive Fault
  deriving DecidableEq, Repr

/-- The refusals of a step. -/
inductive Refusal
  /-- Raised by `exec` alone, for a command that has no meaning in the model yet; no arm of `exec` raises it. Safe: the
  run stops. -/
  | notModelled (mnemonic : String)
  deriving DecidableEq, Repr

/-! ### The state -/

/-- What an event answers, as it stood when the event was held: nothing that can pass; the deadline of the timer that
expires; the command of a bay, or of a channel, that ends; or the line job and the command to a station that the
mailing line answers. -/
inductive Awaited
  | nothing
  | timer (deadline : Option Nat)
  | bayCommand (command : Option (BayCommand × Nat))
  | channel (activity : Activity)
  | line (job : Option LineJob) (command : Option (LineCommand × Nat))
  deriving DecidableEq, Repr

/-- An event that a full write queue holds back (R188): the command that brings it and what it answers, by which an
event is told whose timer, command or line job has passed meanwhile (log entries 8 and 43). -/
structure Held where
  event   : Instr
  awaited : Awaited
  deriving DecidableEq, Repr

/-- The state of the part. `pending` is the queue of the commands that are waiting; `waiting` the events that a full
write queue holds back (R188). -/
structure State where
  pending       : List Instr
  now           : Nat
  dayCount      : Nat
  mode          : Mode
  startup       : Startup
  returned      : Nat
  mem           : RecordMemory
  writeQueue    : List WriteUnit
  writeDeadline : Option Nat
  waiting       : List Held
  settings      : Table Nat
  scan          : Option Scan
  titles        : Table Title
  freeMap       : List Run
  store         : Table (List Byte)
  grant         : Option Requester
  searchFrom    : Requester
  stagingWriter : Option StagedBlock
  walk          : Option Walk
  patrons       : Table Patron
  decreases     : List Nat
  restorations  : List Restoration
  loans         : Table Loan
  nextTag       : Nat
  engine        : Engine
  copyQueue     : List Job
  chanA         : Channel
  chanB         : Channel
  bays          : Vector Bay 16
  lamp          : LampChain
  lineJobs      : List LineJob
  lineCmd       : Option LineSend
  stations      : Vector StationState 30
  bins          : Vector Bin 32
  recog         : Recognizer
  cp            : PortUnit
  fp            : PortUnit
  deriving DecidableEq, Repr

/-! ### Reset values -/

/-- The sum of nothing (R114). -/
def ImageSum.zero : ImageSum := { s1 := 0, s2 := 0 }

/-- A run descriptor set with every field zero (R111). -/
def RunSet.zero : RunSet := { first := 0, last := 0, now := 0, count := 0 }

/-- A channel in IDLE with every field cleared (R111). -/
def Channel.cleared : Channel :=
  { state := .idle, tag := none, bay := none, titles := [], index := 0, set1 := .zero, set2 := .zero, second := false,
    sum := .zero, block := 0, attempts := 0, stopping := false, stopCause := none, activity := .none }

/-- An EMPTY bay (R89, R104), its switch off and its ready line high. -/
def Bay.vacant : Bay :=
  { state := .empty, reject := none, identity := none, clamped := 0, usable := 0, tag := none, releasePending := false,
    eraseStarted := false, command := none, ejectPulse := none, presence := false, ready := true }

/-- An OPEN bin with an empty list and its close timer stopped (R143). -/
def Bin.fresh : Bin := { state := .open, list := [], closeTimer := none }

/-- The Selection Engine in IDLE, cursor 0, again-flag no (R64). No rule gives the fields of a pass in IDLE: start slot 0,
next slot none, no shipment and ended full no are the model's (DESIGN CHOICE, log entry 41). -/
def Engine.idle : Engine :=
  { passing := false, cursor := 0, again := false, start := 0, next := none, shipments := 0, endedFull := false }

/-- The recognizer after part reset (R153), with the sensor at a level. -/
def Recognizer.idle (presence : Bool) : Recognizer :=
  { stage := .idle, presence := presence, tag := none, patron := none, readOutstanding := false, dwellMet := false,
    gapCount := 0, longestGap := 0, falseDepartures := 0, gapStart := 0, tagReadTimer := none, dwellTimer := none,
    dropoutTimer := none, clearTimer := none, departureTimer := none }

/-- A Port Unit with every queue empty and the overflow mark clear (R184). -/
def PortUnit.empty (resetLine : Bool) : PortUnit :=
  { posted := [], applying := false, handed := false, delayed := [], notices := [], overflow := false, exchange := none,
    resetLine := resetLine }

/-- Record memory that has never been written (DESIGN CHOICE, log entry 9): a mark of erased bytes (R198), no record. -/
def RecordMemory.unwritten : RecordMemory :=
  { mark := List.replicate 7 0xFF, settings := [], day := 0, titles := [], patrons := [], loans := [], nextTag := 1,
    bins := Vector.replicate 32 { state := .open, list := [] } }

/-- The free-extent map with every extent free (R1, R3). -/
def allFree : List Run := [{ first := 0, count := Config.extents }]

/-- The part right after part reset (R184, R89, R111, R137, R153, R188): both ports STARTING, the format mark being
read, every table empty until the load. R143 knows no bins until then; State holds 32 OPEN empty ones, which nothing reads
before a load or a format sets them (DESIGN CHOICE, log entry 49). The next-tag counter, which R41 and R63 give no value
until a load or a format, is 1, and the tables, the day count and the settings are as in UNFORMATTED (DESIGN CHOICE, log
entry 59). -/
def State.reset : State :=
  { pending := [], now := 0, dayCount := 0, mode := .starting, startup := .readingMark Config.recordAnswerTime,
    returned := 0, mem := .unwritten, writeQueue := [], writeDeadline := none, waiting := [], settings := [],
    scan := none, titles := [], freeMap := allFree, store := [], grant := none, searchFrom := .staging,
    stagingWriter := none, walk := none, patrons := [], decreases := [], restorations := [], loans := [], nextTag := 1,
    engine := .idle, copyQueue := [], chanA := .cleared, chanB := .cleared, bays := Vector.replicate 16 .vacant,
    lamp := { sending := some 0, again := false }, lineJobs := [], lineCmd := none,
    stations := Vector.replicate 30 .unused, bins := Vector.replicate 32 .fresh, recog := .idle false,
    cp := .empty false, fp := .empty false }

end Sys2Proof.Machine
end

