-- ==== Sys2Proof/Machine/Codes.lean ====
section
/-! DEFINITION. The numbers of named values (R195): the position in the list of the field's Range column, counting
from 1; reason codes and notice kinds as sections 11.1 and 11.2 number them; request codes as section 11.1. -/

namespace Sys2Proof.Machine

/-- Kind of a title (section 1.1). -/
def Kind.number : Kind → Nat
  | .audio => 1
  | .brailleFile => 2

/-- State of a CARTRIDGE title (section 1.1). -/
def TitleState.number : TitleState → Nat
  | .absent => 1
  | .staging => 2
  | .resident => 3
  | .retiring => 4
  | .damaged => 5

/-- Medium of a loan (section 3.1). -/
def LoanMedium.number : LoanMedium → Nat
  | .cartridge => 1
  | .volume => 2

/-- State of a loan (section 3.1). -/
def LoanState.number : LoanState → Nat
  | .planned => 1
  | .copying => 2
  | .written => 3
  | .picked => 4
  | .bagged => 5
  | .mailed => 6
  | .overdue => 7
  | .returning => 8

/-- State of a bay (section 5.1). -/
def BayState.number : BayState → Nat
  | .empty => 1
  | .identifying => 2
  | .blank => 3
  | .reserved => 4
  | .writing => 5
  | .verifying => 6
  | .tagging => 7
  | .written => 8
  | .erasing => 9
  | .rejected => 10

/-- State of a channel (R129). -/
def ChanState.number : ChanState → Nat
  | .idle => 1
  | .header => 2
  | .image => 3
  | .index => 4
  | .verify => 5
  | .tagging => 6
  | .draining => 7
  | .retryErase => 8

/-- Stop cause of a channel (R129). -/
def StopCause.number : StopCause → Nat
  | .cancel => 1
  | .removal => 2

/-- State of a station (R133). -/
def StationState.number : StationState → Nat
  | .unused => 1
  | .online => 2
  | .offline => 3

/-- State of a bin (section 7.5). -/
def BinState.number : BinState → Nat
  | .open => 1
  | .closed => 2
  | .off => 3

/-- Mailing line command: its place in R131, which is also its code (section 11.5). -/
def LineCommand.number : LineCommand → Nat
  | .label => 1
  | .gate => 2
  | .gatesHome => 3
  | .ping => 4

/-- Stage of the recognizer (section 8.1). -/
def Stage.number : Stage → Nat
  | .idle => 1
  | .sensed => 2
  | .tagRead => 3
  | .settled => 4
  | .accepted => 5

/-- Mode of the ports (section 9 field table). -/
def Mode.number : Mode → Nat
  | .starting => 1
  | .unformatted => 2
  | .ready => 3

/-- The owning port as PARAMETER QUERY sends it (R194, section 11.1). No Range column lists the ports; CP, named first
throughout, is 1 and FP 2 (DEDUCED, log entry 51). -/
def portNumber : Port → Nat
  | .cp => 1
  | .fp => 2

/-- Reason codes: 1 to 26 for refusals, from 32 for reasons of notices only (section 11.1). -/
def Reason.number : Reason → Nat
  | .unknownTitle => 1
  | .unknownPatron => 2
  | .unknownLoan => 3
  | .duplicate => 4
  | .tableFull => 5
  | .listFull => 6
  | .onLoan => 7
  | .notFound => 8
  | .wrongState => 9
  | .tooLate => 10
  | .pinned => 11
  | .storeFull => 12
  | .badBlockIndex => 13
  | .copiesLimit => 14
  | .loansOut => 15
  | .reserved => 16
  | .busy => 17
  | .binClosed => 18
  | .lineBusy => 19
  | .labelFault => 20
  | .stationOffline => 21
  | .notEmpty => 22
  | .notFormatted => 23
  | .wrongPort => 24
  | .malformed => 25
  | .unknownCode => 26
  | .sum => 32
  | .idle => 33
  | .damaged => 34
  | .rehome => 35
  | .returned => 36
  | .shelved => 37
  | .withdrawn => 38
  | .lost => 39
  | .pickFailed => 40
  | .unsuited => 41
  | .worn => 42
  | .eraseFault => 43
  | .writeFault => 44
  | .noTag => 45
  | .unknownTag => 46
  | .notOut => 47
  | .bounce => 48
  | .stuck => 49
  | .rejected => 50

/-- Notice kinds 1 to 22; NONE is 0 (section 11.2). -/
def NoticeKind.number : NoticeKind → Nat
  | .titleResident => 1
  | .stageFailed => 2
  | .titleEvicted => 3
  | .titleDamaged => 4
  | .wantDropped => 5
  | .shipmentPlanned => 6
  | .cancelled => 7
  | .loanClosed => 8
  | .overdue => 9
  | .pick => 10
  | .reshelve => 11
  | .cartridgeWritten => 12
  | .bayPulled => 13
  | .bayRejected => 14
  | .stationOffline => 15
  | .returnUnread => 16
  | .copyFailed => 17
  | .bagReleased => 18
  | .returnAccepted => 19
  | .started => 20
  | .refused => 21
  | .resultDiscarded => 22

/-- The code of a request (section 11.1). -/
def codeNumber : ReqCode → Nat
  | .takeNotice => 0x01
  | .portStatus => 0x02
  | .portReset => 0x03
  | .defineTitle => 0x10
  | .stageBegin => 0x11
  | .stageBlock => 0x12
  | .retireTitle => 0x13
  | .addCopies => 0x14
  | .removeCopy => 0x15
  | .enrolPatron => 0x18
  | .amendPatron => 0x19
  | .removePatron => 0x1A
  | .addWant => 0x1B
  | .dropWant => 0x1C
  | .cancelLoan => 0x20
  | .declareLost => 0x21
  | .advanceDay => 0x22
  | .selectNow => 0x23
  | .formatRecords => 0x24
  | .picked => 0x30
  | .pickFailed => 0x31
  | .shelve => 0x32
  | .withdrawCopy => 0x33
  | .ejectBay => 0x34
  | .containItem => 0x35
  | .pingStation => 0x36
  | .bagReplaced => 0x37
  | .routeOff => 0x38
  | .routeOn => 0x39
  | .rejectContainer => 0x3A
  | .setParameter => 0x40
  | .titleQuery => 0x50
  | .patronQuery => 0x51
  | .loanQuery => 0x52
  | .channelQuery => 0x53
  | .stationQuery => 0x54
  | .binQuery => 0x55
  | .parameterQuery => 0x56

/-- The request a code names, if the code table holds it (section 11.1). -/
def codeOf : Nat → Option ReqCode
  | 0x01 => some .takeNotice
  | 0x02 => some .portStatus
  | 0x03 => some .portReset
  | 0x10 => some .defineTitle
  | 0x11 => some .stageBegin
  | 0x12 => some .stageBlock
  | 0x13 => some .retireTitle
  | 0x14 => some .addCopies
  | 0x15 => some .removeCopy
  | 0x18 => some .enrolPatron
  | 0x19 => some .amendPatron
  | 0x1A => some .removePatron
  | 0x1B => some .addWant
  | 0x1C => some .dropWant
  | 0x20 => some .cancelLoan
  | 0x21 => some .declareLost
  | 0x22 => some .advanceDay
  | 0x23 => some .selectNow
  | 0x24 => some .formatRecords
  | 0x30 => some .picked
  | 0x31 => some .pickFailed
  | 0x32 => some .shelve
  | 0x33 => some .withdrawCopy
  | 0x34 => some .ejectBay
  | 0x35 => some .containItem
  | 0x36 => some .pingStation
  | 0x37 => some .bagReplaced
  | 0x38 => some .routeOff
  | 0x39 => some .routeOn
  | 0x3A => some .rejectContainer
  | 0x40 => some .setParameter
  | 0x50 => some .titleQuery
  | 0x51 => some .patronQuery
  | 0x52 => some .loanQuery
  | 0x53 => some .channelQuery
  | 0x54 => some .stationQuery
  | 0x55 => some .binQuery
  | 0x56 => some .parameterQuery
  | _ => none

/-- The payload length a request requires (section 11.1). -/
def payloadLength : ReqCode → Nat
  | .takeNotice => 0
  | .portStatus => 0
  | .portReset => 0
  | .defineTitle => 8
  | .stageBegin => 0
  | .stageBlock => 4098
  | .retireTitle => 0
  | .addCopies => 1
  | .removeCopy => 0
  | .enrolPatron => 3
  | .amendPatron => 3
  | .removePatron => 0
  | .addWant => 4
  | .dropWant => 3
  | .cancelLoan => 0
  | .declareLost => 0
  | .advanceDay => 0
  | .selectNow => 0
  | .formatRecords => 0
  | .picked => 0
  | .pickFailed => 0
  | .shelve => 0
  | .withdrawCopy => 0
  | .ejectBay => 0
  | .containItem => 0
  | .pingStation => 0
  | .bagReplaced => 0
  | .routeOff => 0
  | .routeOn => 0
  | .rejectContainer => 0
  | .setParameter => 4
  | .titleQuery => 0
  | .patronQuery => 0
  | .loanQuery => 0
  | .channelQuery => 0
  | .stationQuery => 0
  | .binQuery => 0
  | .parameterQuery => 0

/-- A field given as none where 0 lies inside its range: all ones across its `n` bytes (R195). -/
def allOnes (n : Nat) : Nat := 256 ^ n - 1

/-- A number or none, 0 lying inside the field's range (R195). -/
def orOnes (n : Nat) : Option Nat → Nat
  | some v => v
  | none => allOnes n

/-- A number or none, 0 lying outside the field's range (R195). -/
def orZero : Option Nat → Nat
  | some v => v
  | none => 0

end Sys2Proof.Machine
end

