-- ==== Sys2Proof/Machine/Settings.lean ====
section
/-! DEFINITION. The settings of section 10.4: number, range, default and owning port, and how a value is read. -/

namespace Sys2Proof.Machine

/-- A row of the settings table (section 10.4). -/
structure Param where
  low     : Nat
  high    : Nat
  default : Nat
  port    : Port
  deriving DecidableEq, Repr

/-- The route settings, parameters 128..255, by their offset from 128 (section 10.4). -/
def routeParam (offset : Nat) : Param :=
  let r := offset / 4
  if offset % 4 = 0 then { low := 1, high := 30, default := if r < 16 then 2 else 3, port := .fp }
  else if offset % 4 = 1 then { low := 0, high := 15, default := r % 16, port := .fp }
  else if offset % 4 = 2 then { low := 1, high := 48, default := 24, port := .fp }
  else { low := 0, high := 3600, default := 600, port := .fp }

/-- The settings 1..45 (section 10.4). -/
def globalParam : Nat → Option Param
  | 1 => some { low := 7, high := 60, default := 28, port := .cp }
  | 2 => some { low := 0, high := 28, default := 14, port := .cp }
  | 3 => some { low := 14, high := 180, default := 90, port := .cp }
  | 4 => some { low := 0, high := 8, default := 3, port := .cp }
  | 5 => some { low := 1, high := 4, default := 4, port := .cp }
  | 6 => some { low := 1, high := 600, default := 30, port := .cp }
  | 7 => some { low := 100, high := 60000, default := 2000, port := .cp }
  | 32 => some { low := 100, high := 65535, default := 5000, port := .fp }
  | 33 => some { low := 10, high := 2000, default := 250, port := .fp }
  | 34 => some { low := 1, high := 120, default := 20, port := .fp }
  | 35 => some { low := 0, high := 3, default := 2, port := .fp }
  | 36 => some { low := 60, high := 86400, default := 3600, port := .fp }
  | 37 => some { low := 50, high := 5000, default := 300, port := .fp }
  | 38 => some { low := 5, high := 200, default := 20, port := .fp }
  | 39 => some { low := 20, high := 2000, default := 100, port := .fp }
  | 40 => some { low := 1, high := 60, default := 10, port := .fp }
  | 41 => some { low := 100, high := 5000, default := 500, port := .fp }
  | 42 => some { low := 5, high := 500, default := 40, port := .fp }
  | 43 => some { low := 0, high := 5, default := 2, port := .fp }
  | 44 => some { low := 1, high := 30, default := 1, port := .fp }
  | 45 => some { low := 100, high := 60000, default := 2000, port := .fp }
  | _ => none

/-- The row of a parameter number, if it names a setting (section 10.4). -/
def paramOf (n : Nat) : Option Param :=
  if 128 ≤ n ∧ n ≤ 255 then some (routeParam (n - 128)) else globalParam n

/-- A value clamped to the nearer end of a setting's range (R193). -/
def Param.clamp (p : Param) (v : Nat) : Nat :=
  if v < p.low then p.low else if p.high < v then p.high else v

/-- The default of a parameter number; 0 for a number that names no setting. -/
def paramDefault (n : Nat) : Nat :=
  match paramOf n with
  | some p => p.default
  | none => 0

/-- The settings with one value written, kept as the list of values that differ from their default. -/
def writeSetting (n v : Nat) (t : Table Nat) : Table Nat :=
  if v = paramDefault n then Table.erase n t else Table.set n v t

/-- The value a setting holds. -/
def State.setting (s : State) (n : Nat) : Nat :=
  (Table.find n s.settings).getD (paramDefault n)

/-! The settings by name (section 10.4). -/

def State.basePeriod (s : State) : Nat := s.setting 1
def State.periodStep (s : State) : Nat := s.setting 2
def State.periodCap (s : State) : Nat := s.setting 3
def State.skipLimit (s : State) : Nat := s.setting 4
def State.maxPlanTitles (s : State) : Nat := s.setting 5
/-- Staging idle time in milliseconds (R11). -/
def State.stagingIdleTime (s : State) : Nat := 1000 * s.setting 6
/-- The discard time of a port in milliseconds (R177). -/
def State.discardTime (s : State) : Port → Nat
  | .cp => s.setting 7
  | .fp => s.setting 45
def State.wearLimit (s : State) : Nat := s.setting 32
def State.bayStallTime (s : State) : Nat := s.setting 33
/-- Erase time limit in milliseconds (R97, R124). -/
def State.eraseTimeLimit (s : State) : Nat := 1000 * s.setting 34
def State.copyRetryLimit (s : State) : Nat := s.setting 35
/-- Re-home limit in milliseconds (R101). -/
def State.rehomeLimit (s : State) : Nat := 1000 * s.setting 36
def State.dwellTime (s : State) : Nat := s.setting 37
def State.dropoutLimit (s : State) : Nat := s.setting 38
def State.clearTime (s : State) : Nat := s.setting 39
/-- Departure window in milliseconds (R160). -/
def State.departureWindow (s : State) : Nat := 1000 * s.setting 40
def State.tagReadLimit (s : State) : Nat := s.setting 41
def State.answerTime (s : State) : Nat := s.setting 42
def State.lineRetries (s : State) : Nat := s.setting 43
def State.labelStation (s : State) : Nat := s.setting 44
def State.gateStation (s : State) (r : RouteNo) : Nat := s.setting (128 + 4 * r.val)
def State.gateOutput (s : State) (r : RouteNo) : Nat := s.setting (129 + 4 * r.val)
def State.triggerLevel (s : State) (r : RouteNo) : Nat := s.setting (130 + 4 * r.val)
/-- Close timeout of a route in seconds, 0 for no close timer (R145). -/
def State.closeTimeout (s : State) (r : RouteNo) : Nat := s.setting (131 + 4 * r.val)

end Sys2Proof.Machine
end

