-- ==== Sys2Proof/Machine/Flags.lean ====
section
/-! DEFINITION. The lines that follow the records: latch drives (R90, R106), lamp codes and the lamp chain (R91), and
the notice lines (R179). -/

namespace Sys2Proof.Machine

/-- A latch drive: FREE, ENGAGED, or pulsed to its eject position (R90, R106). -/
inductive Latch
  | free
  | engaged
  | eject
  deriving DecidableEq, Repr

/-- The states that hold the latch ENGAGED (R90). -/
def BayState.engaged : BayState → Bool
  | .identifying => true
  | .writing => true
  | .verifying => true
  | .tagging => true
  | .erasing => true
  | .empty => false
  | .blank => false
  | .reserved => false
  | .written => false
  | .rejected => false

/-- The latch drive of a bay (R90, R106). -/
def Bay.latch (x : Bay) : Latch :=
  if x.ejectPulse.isSome then .eject else if x.state.engaged then .engaged else .free

/-- The lamp code of a bay state: 0 off, 1 slow blink, 2 steady, 3 fast blink (R91). -/
def BayState.lampCode : BayState → Nat
  | .empty => 0
  | .identifying => 1
  | .blank => 2
  | .reserved => 1
  | .writing => 1
  | .verifying => 1
  | .tagging => 1
  | .written => 2
  | .erasing => 1
  | .rejected => 3

/-- The 32 bits of the lamp chain, the first sent the most significant: bay 15's pair first and bay 0's last (R91). -/
def lampWord (bays : Vector Bay 16) : BitVec 32 :=
  BitVec.ofNat 32 (bays.toList.foldr (fun x acc => x.state.lampCode + 4 * acc) 0)

/-- A change of lamp codes starts a send, or marks the chain to be sent once more after the send in progress (R91). -/
def State.lampChanged (s : State) : State :=
  match s.lamp.sending with
  | none => { s with lamp := { sending := some (lampWord s.bays), again := false } }
  | some w => { s with lamp := { sending := some w, again := true } }

/-- The lamp chain after an event that led from `before` to `after` (R91). -/
def lampAfter (before after : State) : State :=
  if lampWord before.bays = lampWord after.bays then after else after.lampChanged

/-- A port's notice line is low exactly while its notice queue holds a notice (R179). -/
def PortUnit.noticeLineLow (u : PortUnit) : Bool :=
  !u.notices.isEmpty

end Sys2Proof.Machine
end

