-- ==== Sys2Proof/Machine/Ops.lean ====
section
/-! DEFINITION. The operations the families share: reading and writing the records, handing units to record memory
(R187, R188), handing notices to the ports (R178), selection triggers (R65), the end of a posted application (R172), and
the taking of an event under a full write queue. -/

namespace Sys2Proof.Machine

/-! ### Reading and writing the records -/

def State.port (s : State) : Port → PortUnit
  | .cp => s.cp
  | .fp => s.fp

def State.setPort (p : Port) (u : PortUnit) (s : State) : State :=
  match p with
  | .cp => { s with cp := u }
  | .fp => { s with fp := u }

def State.chan (s : State) : Chan → Channel
  | .a => s.chanA
  | .b => s.chanB

def State.setChan (c : Chan) (x : Channel) (s : State) : State :=
  match c with
  | .a => { s with chanA := x }
  | .b => { s with chanB := x }

def State.bay (s : State) (b : BayNo) : Bay := s.bays[b]

def State.setBay (b : BayNo) (x : Bay) (s : State) : State :=
  { s with bays := s.bays.set b x }

def State.bin (s : State) (r : RouteNo) : Bin := s.bins[r]

def State.setBin (r : RouteNo) (x : Bin) (s : State) : State :=
  { s with bins := s.bins.set r x }

/-- The record of a station, addresses 1..30 (R133); any other address is no station. -/
def State.station (s : State) (a : Nat) : StationState :=
  if a = 0 then .unused else s.stations[a - 1]?.getD .unused

def State.setStation (a : Nat) (x : StationState) (s : State) : State :=
  if a = 0 then s else { s with stations := s.stations.setIfInBounds (a - 1) x }

def State.title (s : State) (n : Nat) : Option Title := Table.find n s.titles

def State.putTitle (n : Nat) (t : Title) (s : State) : State :=
  { s with titles := Table.set n t s.titles }

def State.loan (s : State) (tag : Nat) : Option Loan := Table.find tag s.loans

def State.putLoan (tag : Nat) (l : Loan) (s : State) : State :=
  { s with loans := Table.set tag l s.loans }

/-- The slot and record of a reader, by patron number (R25). -/
def State.reader (s : State) (number : Nat) : Option (Nat × Patron) :=
  s.patrons.find? (fun e => e.2.number == number)

def State.putPatron (slot : Nat) (p : Patron) (s : State) : State :=
  { s with patrons := Table.set slot p s.patrons }

/-- Records are ready and the part is running (R184, R190). -/
def State.isReady (s : State) : Bool := s.mode == .ready

/-- Taking the expiry of a timer says that its duration has elapsed: the clock stands at its limit at least (log entry
3). -/
def State.expire (limit : Nat) (s : State) : State :=
  { s with now := max s.now limit }

/-- One millisecond of the Service Clock with no command waiting (log entry 2). -/
def State.tick (s : State) : State := { s with now := s.now + 1 }

/-! ### Units for record memory -/

/-- What record memory keeps of a title: not blocks received, staging sum, pin count and withdrawing mark (R23), and no
timer. The staging sum of a title after a load is so 0 (DESIGN CHOICE, log entry 48). -/
def Title.kept (t : Title) : Title :=
  { withdrawing := false
    body := match t.body with
      | .cart c => .cart { c with received := 0, stagingSum := .zero, pins := 0, idleTimer := none }
      | .vol v => .vol v }

/-- What record memory keeps of a reader: not loans-out and returns open (R39). -/
def Patron.kept (p : Patron) : Patron := { p with loansOut := 0, returnsOpen := 0 }

/-- What record memory keeps of a bin (R143). -/
def Bin.kept (b : Bin) : BinRecord := { state := b.state, list := b.list }

/-- A block hands a unit to the Record Memory Controller; the write of the oldest unit is under its 50 ms limit, from
records ready on or while a format is writing (R187, R188, R190). -/
def State.hand (u : WriteUnit) (s : State) : State :=
  { s with
    writeQueue := s.writeQueue ++ [u]
    writeDeadline :=
      if s.writeQueue.isEmpty && s.mode != .starting then some (s.now + Config.recordAnswerTime) else s.writeDeadline }

/-- Change a title record and hand the change (R23). -/
def State.saveTitle (n : Nat) (t : Title) (s : State) : State :=
  (s.putTitle n t).hand [.title n (some t.kept)]

/-- Free a title record and hand the erasure (R23). -/
def State.dropTitle (n : Nat) (s : State) : State :=
  State.hand [.title n none] { s with titles := Table.erase n s.titles }

/-- Change a reader record and hand the change (R39). -/
def State.savePatron (slot : Nat) (p : Patron) (s : State) : State :=
  (s.putPatron slot p).hand [.patron slot (some p.kept)]

/-- Change a loan record and hand the change (R62). -/
def State.saveLoan (tag : Nat) (l : Loan) (s : State) : State :=
  (s.putLoan tag l).hand [.loan tag (some l)]

/-- Change a bin and hand the change (R152). -/
def State.saveBin (r : RouteNo) (x : Bin) (s : State) : State :=
  (s.setBin r x).hand [.bin r x.kept]

/-! ### Notices and selection triggers -/

/-- A notice handed to a Port Unit is appended, or dropped with the overflow mark set at a full queue (R178). -/
def PortUnit.append (n : Notice) (u : PortUnit) : PortUnit :=
  if u.notices.length < Config.maxNotices then { u with notices := u.notices ++ [n] } else { u with overflow := true }

def State.notify (p : Port) (n : Notice) (s : State) : State :=
  s.setPort p ((s.port p).append n)

/-- A notice without a reason. -/
def note (k : NoticeKind) (key : Nat) (values : List Nat) : Notice :=
  { kind := k, key := key, reason := none, values := values }

/-- A notice with a reason. -/
def noteFor (k : NoticeKind) (key : Nat) (reason : Reason) (values : List Nat) : Notice :=
  { kind := k, key := key, reason := some reason, values := values }

/-- The number of an image sum: S2 in the upper half (R114). -/
def ImageSum.number (x : ImageSum) : Nat := x.s2 * 65536 + x.s1

/-- The slot after a slot, once round the Patron Table (R67). -/
def slotAfter (k : Nat) : Nat := if k + 1 < Config.slots then k + 1 else 0

/-- The start of a pass (R67). -/
def Engine.startPass (g : Engine) : Engine :=
  { g with
    passing := true, again := false, endedFull := false, shipments := 0
    start := slotAfter g.cursor, next := some (slotAfter g.cursor) }

/-- A selection trigger: IDLE starts a pass at once, PASSING sets the again-flag (R65). -/
def State.trigger (s : State) : State :=
  { s with engine := if s.engine.passing then { s.engine with again := true } else s.engine.startPass }

/-! ### The end of a posted application -/

/-- The head of a posted queue in which none is in application is handed to its owning block (R172). -/
def PortUnit.handHead (u : PortUnit) : PortUnit :=
  if u.applying || u.posted.isEmpty then u else { u with applying := true, handed := true }

/-- The head of a posted queue leaves it: its application has ended, every posted mark that named it is cleared, and the
next becomes the head and is handed over at once (R172, R175). -/
def PortUnit.endApplication (u : PortUnit) : PortUnit :=
  { u with
    posted := u.posted.tail
    applying := !u.posted.tail.isEmpty
    handed := !u.posted.tail.isEmpty
    delayed := u.delayed.map (fun d => { d with mark := d.mark - 1 }) }

def State.endPosted (p : Port) (s : State) : State :=
  s.setPort p (s.port p).endApplication

/-- The REFUSED notice: the request's key, the reason, and the request code followed by the values the refusing rule
names (R173). -/
def State.notifyRefused (p : Port) (code : ReqCode) (key : Nat) (reason : Reason) (values : List Nat) (s : State) : State :=
  s.notify p (noteFor .refused key reason (codeNumber code :: values))

/-- A posted request refused at its application (R173). -/
def State.refuse (p : Port) (code : ReqCode) (key : Nat) (reason : Reason) (values : List Nat) (s : State) : State :=
  (s.notifyRefused p code key reason values).endPosted p

/-! ### Readers' counts -/

/-- The Patron Table takes a loans-out decrease for a reader and raises a selection trigger (R29). -/
def State.lowerLoansOut (number : Nat) (s : State) : State :=
  match s.reader number with
  | none => s
  | some (slot, p) => (s.putPatron slot { p with loansOut := p.loansOut - 1 }).trigger

/-- Returns open of a reader falls by 1 (R30). -/
def State.lowerReturnsOpen (number : Nat) (s : State) : State :=
  match s.reader number with
  | none => s
  | some (slot, p) => s.putPatron slot { p with returnsOpen := p.returnsOpen - 1 }

/-! ### Loans -/

/-- The live states of a loan (section 3.1). -/
def LoanState.live : LoanState → Bool
  | .planned => true
  | .copying => true
  | .written => true
  | .picked => true
  | .bagged => true
  | .mailed => true
  | .overdue => true
  | .returning => false

/-- Does a loan's title list name a title? -/
def Loan.names (l : Loan) (title : Nat) : Bool := l.titles.any (fun e => e.title == title)

/-- The tag of a live loan of a reader whose title list names a title (R33, R41). -/
def State.liveLoanNaming (s : State) (patron title : Nat) : Option Nat :=
  (s.loans.find? (fun e => e.2.patron == patron && e.2.state.live && e.2.names title)).map (·.1)

/-- A loan closes: its record is freed, the erasure is handed as one unit with the copy-count change the event brings
(R21, R44), and a selection trigger is raised if the table was full. -/
def State.closeLoan (tag : Nat) (with_ : WriteUnit) (s : State) : State :=
  let t := State.hand (.loan tag none :: with_) { s with loans := Table.erase tag s.loans }
  if s.loans.length = Config.maxLoans then t.trigger else t

/-! ### The copy queue -/

/-- A job leaves the copy queue; leaving a queue that held 24 raises a selection trigger (R87). -/
def State.leaveQueue (tag : Nat) (s : State) : State :=
  if s.copyQueue.any (fun j => j.tag == tag) then
    let t := { s with copyQueue := s.copyQueue.filter (fun j => j.tag != tag) }
    if s.copyQueue.length = Config.maxJobs then t.trigger else t
  else s

/-- The job of a loan. -/
def State.job (s : State) (tag : Nat) : Option Job := s.copyQueue.find? (fun j => j.tag == tag)

/-- Change the job of a loan in its place (R108). -/
def State.updateJob (tag : Nat) (f : Job → Job) (s : State) : State :=
  { s with copyQueue := s.copyQueue.map (fun j => if j.tag == tag then f j else j) }

/-! ### The taking of an event (R188) -/

/-- The command a channel has due or sent on its cartridge line, with its limit. -/
def Activity.command : Activity → Option (CartCommand × Nat)
  | .commandDue cmd limit => some (cmd, limit)
  | .commandSent cmd limit => some (cmd, limit)
  | .none => Option.none
  | .storeRequest => Option.none
  | .storeRead _ => Option.none

/-- The deadline of the staging idle timer of a title, while it runs (R11). -/
def State.idleDeadline (s : State) (n : Nat) : Option Nat :=
  match s.title n with
  | some { body := .cart c, .. } => c.idleTimer
  | _ => none

/-- The deadline of the timer whose expiry a command brings, for the expiries that can hand a unit; none for any other
command. -/
def State.deadlineOf (s : State) : Instr → Option Nat
  | .stagingIdleExpiry n => s.idleDeadline n
  | .rehomeTimerExpiry tag => (s.job tag).bind Job.rehome
  | .cartridgeStallExpiry c => (s.chan c).activity.command.map (·.2)
  | .retryEraseLimitExpiry c => (s.chan c).activity.command.map (·.2)
  | .closeTimerExpiry r => (s.bin r).closeTimer
  | .clearTimerExpiry => s.recog.clearTimer
  | _ => none

/-- What an event answers: the timer that expires, the command that ends, the command that the mailing line answers. -/
def State.awaits (s : State) : Instr → Awaited
  | .stagingIdleExpiry n => .timer (s.deadlineOf (.stagingIdleExpiry n))
  | .rehomeTimerExpiry tag => .timer (s.deadlineOf (.rehomeTimerExpiry tag))
  | .cartridgeStallExpiry c => .timer (s.deadlineOf (.cartridgeStallExpiry c))
  | .retryEraseLimitExpiry c => .timer (s.deadlineOf (.retryEraseLimitExpiry c))
  | .closeTimerExpiry r => .timer (s.deadlineOf (.closeTimerExpiry r))
  | .clearTimerExpiry => .timer (s.deadlineOf .clearTimerExpiry)
  | .identityRecordReceived b _ => .bayCommand (s.bay b).command
  | .eraseRereadReceived b _ => .bayCommand (s.bay b).command
  | .headerWriteEnd c => .channel (s.chan c).activity
  | .imageBlockWriteEnd c => .channel (s.chan c).activity
  | .indexBlockWriteEnd c => .channel (s.chan c).activity
  | .verifyBlockReadEnd c _ => .channel (s.chan c).activity
  | .writeTagEnd c => .channel (s.chan c).activity
  | .drainConfirmation c => .channel (s.chan c).activity
  | .retryEraseEnd c => .channel (s.chan c).activity
  | .labelAnswer _ => .line s.lineJobs.head? (s.lineCmd.map (fun x => (x.command, x.station)))
  | .gateAnswer _ => .line s.lineJobs.head? (s.lineCmd.map (fun x => (x.command, x.station)))
  | .pingAnswer _ => .line s.lineJobs.head? (s.lineCmd.map (fun x => (x.command, x.station)))
  | _ => .nothing

/-- Does an event come from the cartridge in a bay: the end of a reading of the Bay Controller's, or of a channel's
command on its line? -/
def State.fromCartridge (s : State) (b : BayNo) : Instr → Bool
  | .identityRecordReceived x _ => x == b
  | .eraseRereadReceived x _ => x == b
  | .headerWriteEnd c => (s.chan c).bay == some b
  | .imageBlockWriteEnd c => (s.chan c).bay == some b
  | .indexBlockWriteEnd c => (s.chan c).bay == some b
  | .verifyBlockReadEnd c _ => (s.chan c).bay == some b
  | .writeTagEnd c => (s.chan c).bay == some b
  | .drainConfirmation c => (s.chan c).bay == some b
  | .retryEraseEnd c => (s.chan c).bay == some b
  | _ => false

/-- The cartridge of a bay is removed: the events of that cartridge that wait for a place in the write queue are
discarded with its reading, so that the next cartridge is read afresh (R93, R104, log entry 43). -/
def State.voidHeld (b : BayNo) (s : State) : State :=
  { s with waiting := s.waiting.filter (fun h => !s.fromCartridge b h.event) }

/-- An event is held back: nothing of it is done, and it waits for a place in the write queue (R188, log entry 8). An
expiry that is held still says that its time has come (log entry 3), so that a timer restarted since has a later
deadline. -/
def State.hold (e : Instr) (s : State) : State :=
  { s with
    now := max s.now ((s.deadlineOf e).getD 0)
    waiting := s.waiting ++ [{ event := e, awaited := s.awaits e }] }

/-- May an event that leads to `after` be taken: does it hand no unit, or does the write queue hold at most 128 with all
it hands (R188, log entry 8)? -/
def State.fits (s after : State) : Bool :=
  decide (after.writeQueue.length ≤ s.writeQueue.length) || decide (after.writeQueue.length ≤ Config.maxUnits)

/-- The taking of an event by its meaning `f`: an event whose units the write queue has no place for is held back
(R188); otherwise it is taken, and the lamp chain follows (R91). -/
def commit (e : Instr) (f : State → State) (s : State) : State :=
  if s.fits (f s) then lampAfter s (f s) else s.hold e

end Sys2Proof.Machine
end

