-- ==== Sys2Proof/Machine/Store.lean ====
section
/-! DEFINITION. The title store: its free-extent map, runs and mapping (R3 to R5), its content, the image sum (R114),
and the store arbiter (R12). -/

namespace Sys2Proof.Machine

/-! ### The free-extent map (R3) -/

/-- Free a run: it joins the free extents next to it, so that the list stays the maximal free stretches in rising
order (R3). -/
def addFree (r : Run) : List Run → List Run
  | [] => [r]
  | x :: xs =>
    if r.first + r.count < x.first then r :: x :: xs
    else if r.first + r.count = x.first then { first := r.first, count := r.count + x.count } :: xs
    else if x.first + x.count = r.first then addFree { first := x.first, count := x.count + r.count } xs
    else x :: addFree r xs

/-- A stretch as a list: nothing when it is empty. -/
def stretch (first count : Nat) : List Run :=
  if count = 0 then [] else [{ first := first, count := count }]

/-- Take a run out of the map (R3, R5). -/
def takeFree (r : Run) : List Run → List Run
  | [] => []
  | x :: xs =>
    if x.first ≤ r.first ∧ r.first + r.count ≤ x.first + x.count then
      stretch x.first (r.first - x.first) ++ stretch (r.first + r.count) (x.first + x.count - (r.first + r.count)) ++ xs
    else x :: takeFree r xs

/-- The runs a title holds. -/
def CartTitle.runs (c : CartTitle) : List Run := c.run1.toList ++ c.run2.toList

/-- A CARTRIDGE title without its runs, its state ABSENT and blocks received 0 (R6, R10, R11, R14). No rule gives its
staging sum, which is set to 0 (DESIGN CHOICE, log entry 48). -/
def CartTitle.becomeAbsent (c : CartTitle) : CartTitle :=
  { c with state := .absent, run1 := none, run2 := none, received := 0, stagingSum := .zero, idleTimer := none }

/-- Every extent of a title's runs becomes free (R3). -/
def State.freeRuns (c : CartTitle) (s : State) : State :=
  { s with freeMap := c.runs.foldl (fun m r => addFree r m) s.freeMap }

/-! ### Allocation (R5) -/

/-- The extents an image needs (R5). -/
def extentsFor (length : Nat) : Nat := (length + (Config.extentBlocks - 1)) / Config.extentBlocks

/-- The longest free run, the lowest-numbered among equal lengths (R5 step 2). -/
def longestRun : List Run → Option Run
  | [] => none
  | x :: xs =>
    match longestRun xs with
    | none => some x
    | some y => if x.count < y.count then some y else some x

/-- The runs R5 gives a title that needs `n` extents, or none where both steps fail. -/
def allocate (n : Nat) (free : List Run) : Option (Run × Option Run) :=
  match free.find? (fun r => decide (n ≤ r.count)) with
  | some r => some ({ first := r.first, count := n }, none)
  | none =>
    match longestRun free with
    | none => none
    | some r1 =>
      match (free.filter (fun r => r != r1)).find? (fun r => decide (n - r1.count ≤ r.count)) with
      | none => none
      | some r2 => some (r1, some { first := r2.first, count := n - r1.count })

/-! ### The mapping and the content of the store (R4) -/

/-- The store block of an image block (R4). -/
def CartTitle.storeBlock (c : CartTitle) (i : Nat) : Nat :=
  match c.run1, c.run2 with
  | some r1, some r2 =>
    if i < Config.extentBlocks * r1.count then Config.extentBlocks * r1.first + i
    else Config.extentBlocks * r2.first + (i - Config.extentBlocks * r1.count)
  | some r1, none => Config.extentBlocks * r1.first + i
  | none, _ => i

/-- What a block reads as that nothing has written (DESIGN CHOICE, log entry 10). -/
def unwrittenBlock : List Byte := List.replicate Config.blockBytes 0

/-- A block of the title store. -/
def readStore (t : Table (List Byte)) (block : Nat) : List Byte := (Table.find block t).getD unwrittenBlock

/-- A block written to the title store; the list keeps no block that reads as unwritten. -/
def writeStore (block : Nat) (bytes : List Byte) (t : Table (List Byte)) : Table (List Byte) :=
  if bytes = unwrittenBlock then Table.erase block t else Table.set block bytes t

/-- The canonical form of the title store's content: blocks in rising order, none that reads as unwritten. -/
def storeWf (t : Table (List Byte)) : Bool :=
  Table.sorted t && t.all (fun e => e.2 != unwrittenBlock)

/-! ### The image sum (R114) -/

/-- One sixteen-bit word added to the two partial sums (R114). -/
def ImageSum.addWord (x : ImageSum) (w : Nat) : ImageSum :=
  let s1 := (x.s1 + w) % Config.sumModulus
  { s1 := s1, s2 := (x.s2 + s1) % Config.sumModulus }

/-- The words of bytes added in byte order, the first byte of each pair the low byte (R114). -/
def ImageSum.addBytes (x : ImageSum) : List Byte → ImageSum
  | lo :: hi :: rest => ImageSum.addBytes (x.addWord (lo.toNat + 256 * hi.toNat)) rest
  | _ => x

/-! ### The store arbiter (R12) -/

/-- The requester after another in the ring (R12). -/
def Requester.after : Requester → Requester
  | .staging => .chanA
  | .chanA => .chanB
  | .chanB => .staging

/-- The requester a channel is. -/
def Chan.requester : Chan → Requester
  | .a => .chanA
  | .b => .chanB

/-- Does a requester hold a request not yet granted? -/
def State.requesting (s : State) : Requester → Bool
  | .staging => match s.stagingWriter with
    | some b => !b.transferred && s.grant != some .staging
    | none => false
  | .chanA => s.chanA.activity == .storeRequest
  | .chanB => s.chanB.activity == .storeRequest

/-- The grant given to a requester; the next search starts after it (R12). -/
def State.give (r : Requester) (s : State) : State :=
  let t := { s with grant := some r, searchFrom := r.after }
  match r with
  | .staging => t
  | .chanA => { t with chanA := { t.chanA with activity := .storeRead false } }
  | .chanB => { t with chanB := { t.chanB with activity := .storeRead false } }

/-- Is a title STAGING? -/
def State.isStaging (s : State) (n : Nat) : Bool :=
  match s.title n with
  | some { body := .cart c, .. } => c.state == .staging
  | _ => false

/-- The staging writer's block is discarded and the STAGE BLOCK request ends (R9). -/
def State.discardStaged (s : State) : State :=
  State.endPosted .cp { s with stagingWriter := none }

/-- The first requester holding a request, round the ring (R12). -/
def State.nextRequester (s : State) : Option Requester :=
  [s.searchFrom, s.searchFrom.after, s.searchFrom.after.after].find? s.requesting

/-- The next grant, when the path is free. A block whose title has left STAGING by its grant is discarded, and the
search goes on (R9, R12). Whether the writer then counts as the one last granted is open: the model leaves the start of
the search as it was (DESIGN CHOICE, log entry 36). -/
def State.arbitrate (s : State) : State :=
  if s.grant.isSome then s
  else
    match s.nextRequester with
    | none => s
    | some .staging =>
      match s.stagingWriter with
      | none => s
      | some b =>
        if s.isStaging b.title then s.give .staging
        else
          let t := s.discardStaged
          match t.nextRequester with
          | none => t
          | some r => t.give r
    | some r => s.give r

/-- The end of the transfer of the block granted: the grant ends, a staged block is in the store, and the requester has
its completion still to report (R9, R12, log entry 16). The next grant is not yet decided. -/
def State.endTransfer (s : State) : State :=
  match s.grant with
  | none => s
  | some .staging =>
    match s.stagingWriter with
    | none => { s with grant := none }
    | some b =>
      { s with
        grant := none
        store := writeStore b.storeBlock b.bytes s.store
        stagingWriter := some { b with transferred := true } }
  | some .chanA => { s with grant := none, chanA := { s.chanA with activity := .storeRead true } }
  | some .chanB => { s with grant := none, chanB := { s.chanB with activity := .storeRead true } }

/-- A requester that reports its completion while it holds the grant has seen its transfer end (log entry 16). -/
def State.endTransferOf (r : Requester) (s : State) : State :=
  if s.grant = some r then s.endTransfer.arbitrate else s

end Sys2Proof.Machine
end

