-- ==== Sys2Proof/Machine/Layout.lean ====
section
/-! DEFINITION. The byte layouts of 11_frame_and_record_layouts.md: what goes out (replies, notices, header and index
blocks, mailing line characters, the format mark) and what comes in (identity records, tag reader answers, station
answers). Request frames stand in Decode.lean. -/

namespace Sys2Proof.Machine

/-! ### Request headers (section 11.1) -/

/-- Byte 6 of a header is 255 minus the sum of bytes 0 to 5, mod 256 (section 11.1). -/
def headerCheck (header : List Byte) : Bool :=
  header.length == 7 && (natOfBytes (slice 6 1 header) + byteSum (slice 0 6 header)) % 256 == 255

/-- Does a header fail its check, or announce too long a payload (R195)? -/
def headerMalformed (header : List Byte) : Bool :=
  !headerCheck header || decide (Config.maxPayload < natOfBytes (slice 1 2 header))

/-- The check byte of the six bytes before it (section 11.1). -/
def checkByte (bs : List Byte) : Byte := BitVec.ofNat 8 (255 - byteSum bs % 256)

/-! ### Cartridge records (section 11.3) -/

/-- An image sum in four bytes: S2, then S1. -/
def ImageSum.bytes (x : ImageSum) : List Byte := bytesOfNat 2 x.s2 ++ bytesOfNat 2 x.s1

/-- The image sum that four bytes spell. -/
def sumOfBytes (bs : List Byte) : ImageSum :=
  { s1 := natOfBytes (slice 2 2 bs), s2 := natOfBytes (slice 0 2 bs) }

/-- A cartridge's answer to READ IDENTITY; none where it is not well formed (R93, section 11.3). R93 names a wrong content
byte alone; that an answer of any length but the record's 14 bytes is not well formed either is DEDUCED, unsafe, log entry
55. -/
def parseIdentity (bs : List Byte) : Option Identity :=
  if bs.length ≠ 14 then none
  else
    let make (c : Content) : Option Identity :=
      some
        { serial := natOfBytes (slice 0 4 bs), capacity := natOfBytes (slice 4 4 bs), wear := natOfBytes (slice 8 2 bs),
          content := c, tagArea := natOfBytes (slice 11 3 bs) }
    match natOfBytes (slice 10 1 bs) with
    | 1 => make .blank
    | 2 => make .recorded
    | _ => none

/-- The header block of a title (R115, section 11.3). -/
def headerBlock (position title tag : Nat) (c : CartTitle) : List Byte :=
  padTo Config.blockBytes
    ([0xB7, 0x01] ++ bytesOfNat 1 position ++ bytesOfNat 1 c.kind.number ++ bytesOfNat 3 title ++ [0] ++
      bytesOfNat 2 c.length ++ c.declared.bytes ++ bytesOfNat 3 tag)

/-- An entry of the index block (section 11.3). -/
def indexEntry (e : PlanEntry) (c : CartTitle) : List Byte :=
  bytesOfNat 3 e.title ++ bytesOfNat 1 c.kind.number ++ bytesOfNat 4 e.offset ++ bytesOfNat 2 e.length ++
    c.declared.bytes ++ [0, 0]

/-- Index block 0 (R119, section 11.3). -/
def indexBlock (tag planTotal : Nat) (entries : List (PlanEntry × CartTitle)) : List Byte :=
  padTo Config.blockBytes
    ([0xB7, 0x10] ++ bytesOfNat 3 tag ++ bytesOfNat 1 entries.length ++ bytesOfNat 4 planTotal ++
      entries.flatMap (fun x => indexEntry x.1 x.2))

/-! ### Tag card and tag reader (section 11.4) -/

/-- What a READ TAG answer is taken as (R196). -/
inductive TagAnswer
  | card (tag patron : Nat)
  | noCard
  deriving DecidableEq, Repr

/-- The eight bytes of the tag card printed from the LABEL data (section 11.4). -/
def tagCard (tag patron : Nat) : List Byte :=
  let body := bytesOfNat 3 tag ++ bytesOfNat 3 patron
  let check := byteSum body % 256
  body ++ bytesOfNat 1 check ++ bytesOfNat 1 (255 - check)

/-- The taking of a tag reader's answer: well formed, or as NO_CARD (R196). -/
def parseTagAnswer : List Byte → TagAnswer
  | type :: card =>
    let check := byteSum (slice 0 6 card) % 256
    if type = 0x01 ∧ card.length = 8 ∧ natOfBytes (slice 6 1 card) = check ∧
        natOfBytes (slice 7 1 card) = 255 - check then
      .card (natOfBytes (slice 0 3 card)) (natOfBytes (slice 3 3 card))
    else .noCard
  | [] => .noCard

/-! ### Mailing line characters (section 11.5) -/

/-- An address character. -/
def addressChar (a : Nat) : LineChar := BitVec.ofNat 9 (256 + a % 256)

/-- A data character. -/
def dataChar (v : Byte) : LineChar := BitVec.ofNat 9 v.toNat

/-- A command's characters: its address, its code and data, and the check (section 11.5). -/
def lineChars (station : Nat) (c : LineCommand) (data : List Byte) : List LineChar :=
  let body := bytesOfNat 1 c.number ++ data
  addressChar station :: (body ++ bytesOfNat 1 (byteSum body % 256)).map dataChar

/-- The data of a LABEL (R131, section 11.5). -/
def labelData (tag patron : Nat) (route : RouteNo) (m : LoanMedium) (items period : Nat) : List Byte :=
  bytesOfNat 3 tag ++ bytesOfNat 3 patron ++ bytesOfNat 1 route.val ++ bytesOfNat 1 m.number ++ bytesOfNat 1 items ++
    bytesOfNat 1 period

/-- A station's answer: ACK, or NAK with a reason of 1..255 (R132). -/
inductive LineAnswer
  | ack
  | nak (reason : Nat)
  deriving DecidableEq, Repr

/-- A well-formed answer of the station commanded; none for any other (R197). -/
def parseAnswer (station : Nat) (chars : List LineChar) : Option LineAnswer :=
  match chars with
  | [a, x] => if a = addressChar station ∧ x = dataChar 0x06 then some .ack else none
  | [a, x, r] =>
    if a = addressChar station ∧ x = dataChar 0x15 ∧ 1 ≤ r.toNat ∧ r.toNat ≤ 255 then some (.nak r.toNat) else none
  | _ => none

/-! ### Format mark (section 11.6) -/

/-- The first five bytes of the mark: the pattern and the layout number (R198). -/
def markHead : List Byte := [0xA7, 0x5C, 0x31, 0xE0, 0x01]

/-- The format mark (R198). -/
def formatMark : List Byte := markHead ++ bytesOfNat 2 (byteSum markHead % 65536)

/-- An erased mark (R198). -/
def erasedMark : List Byte := List.replicate 7 0xFF

/-- What a mark read is (R198). -/
inductive MarkTest
  | absent
  | invalid
  | valid
  deriving DecidableEq, Repr

/-- The test of a format mark (R189, R198). -/
def testMark (bs : List Byte) : MarkTest :=
  if slice 0 4 bs ≠ [0xA7, 0x5C, 0x31, 0xE0] then .absent
  else if slice 4 1 bs = [0x01] ∧ natOfBytes (slice 5 2 bs) = byteSum (slice 0 5 bs) % 65536 ∧ bs.length = 7 then .valid
  else .invalid

/-! ### Notices (section 11.2) -/

/-- The 22-byte notice record; kind NONE is 0 (section 11.2). -/
def noticeRecord : Option Notice → List Byte
  | none => List.replicate 22 0
  | some n =>
    bytesOfNat 1 n.kind.number ++ bytesOfNat 1 (orZero (n.reason.map Reason.number)) ++ bytesOfNat 3 n.key ++
      bytesOfNat 1 n.values.length ++ padTo 16 (n.values.flatMap (bytesOfNat 4))

/-! ### Results and replies (section 11.1) -/

/-- The fewest whole bytes that hold a range up to `high` (section 11.1). -/
def widthFor (high : Nat) : Nat :=
  if high < 256 then 1 else if high < 65536 then 2 else if high < 16777216 then 3 else 4

/-- A list of numbers: one count byte, then the entries (section 11.1). -/
def listBytes (width : Nat) (l : List Nat) : List Byte :=
  bytesOfNat 1 l.length ++ l.flatMap (bytesOfNat width)

def CartTitle.resultBytes (c : CartTitle) : List Byte :=
  bytesOfNat 1 c.kind.number ++ bytesOfNat 1 c.state.number ++ bytesOfNat 2 c.length ++ c.declared.bytes ++
    bytesOfNat 1 c.runs.length ++ c.runs.flatMap (fun r => bytesOfNat 2 r.first ++ bytesOfNat 2 r.count) ++
    bytesOfNat 2 c.received ++ bytesOfNat 2 c.pins ++ bytesOfNat 2 c.lastUse

def VolTitle.resultBytes (v : VolTitle) : List Byte :=
  bytesOfNat 1 v.owned ++ bytesOfNat 1 v.onShelf ++ bytesOfNat 3 v.location ++ bytesOfNat 1 v.volumes

/-- The result of a TITLE QUERY (R22). -/
def Title.resultBytes (t : Title) : List Byte :=
  match t.body with
  | .cart c => bytesOfNat 1 1 ++ bytesOfNat 1 (yesNo t.withdrawing) ++ c.resultBytes
  | .vol v => bytesOfNat 1 2 ++ bytesOfNat 1 (yesNo t.withdrawing) ++ v.resultBytes

/-- The result of a PATRON QUERY (R38). -/
def Patron.resultBytes (slot : Nat) (p : Patron) : List Byte :=
  bytesOfNat 2 slot ++ bytesOfNat 1 p.allowance ++ bytesOfNat 1 p.loansOut ++ bytesOfNat 2 p.returnsOpen ++
    bytesOfNat 1 p.route.val ++ bytesOfNat 1 (yesNo p.hold) ++ bytesOfNat 1 p.wants.length ++ listBytes 3 p.wants

/-- The result of a LOAN QUERY (R61). -/
def Loan.resultBytes (tag : Nat) (l : Loan) : List Byte :=
  bytesOfNat 3 tag ++ bytesOfNat 3 l.patron ++ bytesOfNat 1 l.medium.number ++ bytesOfNat 1 l.state.number ++
    bytesOfNat 1 l.titles.length ++
    l.titles.flatMap (fun e => bytesOfNat 3 e.title ++ bytesOfNat 3 e.offset ++ bytesOfNat 2 e.length) ++
    bytesOfNat 3 l.planTotal ++ bytesOfNat 1 (orOnes 1 (l.bay.map (·.val))) ++ bytesOfNat 4 (orOnes 4 l.serial) ++
    bytesOfNat 1 l.period ++ bytesOfNat 2 l.planDay ++ bytesOfNat 2 (orOnes 2 l.shipDay) ++
    bytesOfNat 2 (orOnes 2 l.dueDay) ++ bytesOfNat 1 (orOnes 1 (l.route.map (·.val)))

/-- The result of a CHANNEL QUERY (R129). -/
def ChannelView.resultBytes (v : ChannelView) : List Byte :=
  bytesOfNat 1 v.state.number ++ bytesOfNat 1 (yesNo v.stopping) ++
    bytesOfNat 1 (orZero (v.stopCause.map StopCause.number)) ++ bytesOfNat 3 (orZero v.tag) ++
    bytesOfNat 1 (orOnes 1 (v.bay.map (·.val))) ++ bytesOfNat 1 v.index ++ bytesOfNat 3 (orZero v.title) ++
    bytesOfNat 1 v.setInUse ++ bytesOfNat 3 v.first ++ bytesOfNat 3 v.last ++ bytesOfNat 3 v.now ++
    bytesOfNat 2 v.count1 ++ bytesOfNat 2 v.count2 ++ bytesOfNat 3 v.block ++ bytesOfNat 1 v.attempts

/-- The result of a BIN QUERY (R150). -/
def BinView.resultBytes (v : BinView) : List Byte :=
  bytesOfNat 1 v.state.number ++ bytesOfNat 1 v.list.length ++ listBytes 3 v.list ++ bytesOfNat 1 v.triggerLevel ++
    bytesOfNat 2 v.closeTimeout ++ bytesOfNat 2 (orOnes 2 v.timerLeft) ++ bytesOfNat 1 v.gateStation ++
    bytesOfNat 1 v.gateOutput ++ bytesOfNat 1 v.stationState.number

/-- The result bytes of a delayed request, NOT_FOUND giving none (section 11.1). -/
def QueryResult.bytes : QueryResult → List Byte
  | .notFound => []
  | .title t => t.resultBytes
  | .patron slot p => p.resultBytes slot
  | .loan tag l => l.resultBytes tag
  | .channel v => v.resultBytes
  | .station st isLabel routes => bytesOfNat 1 st.number ++ bytesOfNat 1 (yesNo isLabel) ++ listBytes 1 routes
  | .bin v => v.resultBytes
  | .parameter value low high dflt port =>
    let w := widthFor high
    bytesOfNat w value ++ bytesOfNat w low ++ bytesOfNat w high ++ bytesOfNat w dflt ++ bytesOfNat 1 (portNumber port)

/-- The result of a PORT STATUS (R181). -/
def StatusResult.bytes (r : StatusResult) : List Byte :=
  bytesOfNat 1 r.mode.number ++ bytesOfNat 1 r.posted ++ bytesOfNat 1 (orZero (r.head.map codeNumber)) ++
    bytesOfNat 1 r.delayed ++ bytesOfNat 1 r.completed ++ bytesOfNat 1 r.notices ++
    bytesOfNat 1 (if r.overflow then 1 else 2) ++ bytesOfNat 2 r.day

/-- A DONE reply: status, result length, result (section 11.1). -/
def doneBytes (status : Nat) (result : List Byte) : List Byte :=
  [0x84] ++ bytesOfNat 1 status ++ bytesOfNat 2 result.length ++ result

/-- The bytes of a reply: the reply byte and what follows it (section 11.1; status OK 1, NOT_FOUND 2, EMPTY 3). Of the flags
byte of a TAKE NOTICE result section 11.2 gives bit 0, the overflow mark, alone; the other bits are sent as 0 (DESIGN
CHOICE, log entry 52). -/
def Reply.bytes : Reply → List Byte
  | .accepted => [0x81]
  | .busy => [0x82]
  | .retry => [0x83]
  | .refused r => 0x85 :: bytesOfNat 1 r.number
  | .doneQuery .notFound => doneBytes 2 []
  | .doneQuery r => doneBytes 1 r.bytes
  | .doneNotice n overflow remaining =>
    doneBytes (if n.isSome then 1 else 3)
      (noticeRecord n ++ bytesOfNat 1 (yesNo overflow) ++ bytesOfNat 1 remaining)
  | .doneStatus r => doneBytes 1 r.bytes
  | .doneReset => doneBytes 1 []

end Sys2Proof.Machine
end

