-- ==== Sys2Proof/Machine/Operands.lean ====
section
/-! DEFINITION. The operand forms of the requests: how a key and a payload are read (section 11.1), and the malformed
checks of each request's own rule, the fourth check of R170. -/

namespace Sys2Proof.Machine

/-! ### The classes of requests (section 9.2) -/

/-- The class of a request (section 9.2). -/
inductive ReqClass
  | immediate
  | posted
  | delayed
  deriving DecidableEq, Repr

def requestClass : ReqCode → ReqClass
  | .takeNotice => .immediate
  | .portStatus => .immediate
  | .portReset => .immediate
  | .defineTitle => .posted
  | .stageBegin => .posted
  | .stageBlock => .posted
  | .retireTitle => .posted
  | .addCopies => .posted
  | .removeCopy => .posted
  | .enrolPatron => .posted
  | .amendPatron => .posted
  | .removePatron => .posted
  | .addWant => .posted
  | .dropWant => .posted
  | .cancelLoan => .posted
  | .declareLost => .posted
  | .advanceDay => .posted
  | .selectNow => .posted
  | .formatRecords => .posted
  | .picked => .posted
  | .pickFailed => .posted
  | .shelve => .posted
  | .withdrawCopy => .posted
  | .ejectBay => .posted
  | .containItem => .posted
  | .pingStation => .posted
  | .bagReplaced => .posted
  | .routeOff => .posted
  | .routeOn => .posted
  | .rejectContainer => .posted
  | .setParameter => .posted
  | .titleQuery => .delayed
  | .patronQuery => .delayed
  | .loanQuery => .delayed
  | .channelQuery => .delayed
  | .stationQuery => .delayed
  | .binQuery => .delayed
  | .parameterQuery => .delayed

/-- Is a request taken on a port (section 9.2)? SET PARAMETER is taken on the port that owns the parameter its key names,
and passes on either port where it names none (R193). -/
def takenOn (code : ReqCode) (key : Nat) (p : Port) : Bool :=
  match code with
  | .takeNotice => true
  | .portStatus => true
  | .portReset => true
  | .defineTitle => p == .cp
  | .stageBegin => p == .cp
  | .stageBlock => p == .cp
  | .retireTitle => p == .cp
  | .addCopies => p == .cp
  | .removeCopy => p == .cp
  | .enrolPatron => p == .cp
  | .amendPatron => p == .cp
  | .removePatron => p == .cp
  | .addWant => p == .cp
  | .dropWant => p == .cp
  | .cancelLoan => p == .cp
  | .declareLost => p == .cp
  | .advanceDay => p == .cp
  | .selectNow => p == .cp
  | .formatRecords => p == .cp
  | .picked => p == .fp
  | .pickFailed => p == .fp
  | .shelve => p == .fp
  | .withdrawCopy => p == .fp
  | .ejectBay => p == .fp
  | .containItem => p == .fp
  | .pingStation => p == .fp
  | .bagReplaced => p == .fp
  | .routeOff => p == .fp
  | .routeOn => p == .fp
  | .rejectContainer => p == .fp
  | .setParameter =>
    match paramOf key with
    | some row => p == row.port
    | none => true
  | .titleQuery => true
  | .patronQuery => true
  | .loanQuery => true
  | .channelQuery => true
  | .stationQuery => true
  | .binQuery => true
  | .parameterQuery => true

/-! ### Ranges -/

/-- A loan tag in its range (R41). -/
def tagOk (tag : Nat) : Bool := decide (1 ≤ tag) && decide (tag ≤ Config.maxTag)

/-- A patron number in its range (section 2.1). -/
def patronOk (n : Nat) : Bool := decide (1 ≤ n) && decide (n ≤ Config.maxPatronNumber)

/-- A station address in its range (R135). -/
def stationOk (a : Nat) : Bool := decide (1 ≤ a) && decide (a ≤ 30)

/-- A route code, if it is one (R148). -/
def routeOf (n : Nat) : Option RouteNo := if h : n < 32 then some ⟨n, h⟩ else none

/-- A bay number, if it is one (R106). -/
def bayOf (n : Nat) : Option BayNo := if h : n < 16 then some ⟨n, h⟩ else none

/-- A channel by its key: A is 0 and B is 1 (section 11.1). -/
def chanOf : Nat → Option Chan
  | 0 => some .a
  | 1 => some .b
  | _ => none

/-- The kind a byte names (R195). -/
def kindOf : Nat → Option Kind
  | 1 => some .audio
  | 2 => some .brailleFile
  | _ => none

/-- A yes or no (R195). -/
def boolOf : Nat → Option Bool
  | 0 => some false
  | 1 => some true
  | _ => none

/-- The position of an ADD WANT: is it FRONT (section 11.1)? -/
def frontOf : Nat → Option Bool
  | 1 => some true
  | 2 => some false
  | _ => none

/-! ### Payloads -/

/-- The definition a DEFINE TITLE carries, if it is well formed (R2). -/
def parseDefinition (payload : List Byte) : Option TitleDef :=
  let second := natOfBytes (slice 1 1 payload)
  match natOfBytes (slice 0 1 payload) with
  | 1 =>
    let length := natOfBytes (slice 2 2 payload)
    let s2 := natOfBytes (slice 4 2 payload)
    let s1 := natOfBytes (slice 6 2 payload)
    if length = 0 ∨ s1 = 65535 ∨ s2 = 65535 then none
    else (kindOf second).map (fun k => .cart k length { s1 := s1, s2 := s2 })
  | 2 => if 1 ≤ second ∧ second ≤ 40 then some (.vol (natOfBytes (slice 5 3 payload)) second) else none
  | _ => none

/-- The allowance, route code and hold of an ENROL PATRON or AMEND PATRON (R26). -/
def parseReader (payload : List Byte) : Option (Nat × RouteNo × Bool) :=
  match routeOf (natOfBytes (slice 1 1 payload)), boolOf (natOfBytes (slice 2 1 payload)) with
  | some r, some h => some (min Config.maxAllowance (natOfBytes (slice 0 1 payload)), r, h)
  | _, _ => none

/-- A posted request that names a loan (R41). -/
def tagged (key : Nat) (f : Nat → PostedReq) : Option PostedReq := if tagOk key then some (f key) else none

/-- A posted request that names a route (R148, R149). -/
def routed (key : Nat) (f : RouteNo → PostedReq) : Option PostedReq := (routeOf key).map f

/-- What a posted request of a code says, or none where a field fails a malformed check of its rule (R170). An ADD COPIES
count of 64..255 is none of R19's malformed counts: it passes here and is refused COPIES_LIMIT when applied (DEDUCED,
log entry 37). -/
def parsePosted (code : ReqCode) (key : Nat) (payload : List Byte) : Option PostedReq :=
  match code with
  | .defineTitle => if key = 0 then none else (parseDefinition payload).map (.defineTitle key)
  | .stageBegin => some (.stageBegin key)
  | .stageBlock => some (.stageBlock key (natOfBytes (slice 0 2 payload)) (payload.drop 2))
  | .retireTitle => some (.retireTitle key)
  | .addCopies =>
    let count := natOfBytes (slice 0 1 payload)
    if count = 0 then none else some (.addCopies key count)
  | .removeCopy => some (.removeCopy key)
  | .enrolPatron => if patronOk key then (parseReader payload).map (fun (a, r, h) => .enrolPatron key a r h) else none
  | .amendPatron => if patronOk key then (parseReader payload).map (fun (a, r, h) => .amendPatron key a r h) else none
  | .removePatron => some (.removePatron key)
  | .addWant =>
    let title := natOfBytes (slice 0 3 payload)
    if patronOk key ∧ title ≠ 0 then (frontOf (natOfBytes (slice 3 1 payload))).map (.addWant key title) else none
  | .dropWant => some (.dropWant key (natOfBytes (slice 0 3 payload)))
  | .cancelLoan => tagged key .cancelLoan
  | .declareLost => tagged key .declareLost
  | .advanceDay => some .advanceDay
  | .selectNow => some .selectNow
  | .formatRecords => some .formatRecords
  | .picked => tagged key .picked
  | .pickFailed => tagged key .pickFailed
  | .shelve => tagged key .shelve
  | .withdrawCopy => tagged key .withdrawCopy
  | .ejectBay => (bayOf key).map .ejectBay
  | .containItem => tagged key .containItem
  | .pingStation => if stationOk key then some (.pingStation key) else none
  | .bagReplaced => routed key .bagReplaced
  | .routeOff => routed key .routeOff
  | .routeOn => routed key .routeOn
  | .rejectContainer => some .rejectContainer
  | .setParameter => (paramOf key).map (fun _ => .setParameter key (natOfBytes (slice 0 4 payload)))
  | .takeNotice => none
  | .portStatus => none
  | .portReset => none
  | .titleQuery => none
  | .patronQuery => none
  | .loanQuery => none
  | .channelQuery => none
  | .stationQuery => none
  | .binQuery => none
  | .parameterQuery => none

/-- Does the key of a query pass the malformed check of its rule (R41, R129, R136, R150, R194)? -/
def queryKeyOk (code : ReqCode) (key : Nat) : Bool :=
  match code with
  | .loanQuery => tagOk key
  | .channelQuery => (chanOf key).isSome
  | .stationQuery => stationOk key
  | .binQuery => (routeOf key).isSome
  | .parameterQuery => (paramOf key).isSome
  | _ => true

/-! ### What a posted request is, as its REFUSED notice and PORT STATUS name it (R173, R181) -/

def PostedReq.code : PostedReq → ReqCode
  | .defineTitle _ _ => .defineTitle
  | .stageBegin _ => .stageBegin
  | .stageBlock _ _ _ => .stageBlock
  | .retireTitle _ => .retireTitle
  | .addCopies _ _ => .addCopies
  | .removeCopy _ => .removeCopy
  | .enrolPatron _ _ _ _ => .enrolPatron
  | .amendPatron _ _ _ _ => .amendPatron
  | .removePatron _ => .removePatron
  | .addWant _ _ _ => .addWant
  | .dropWant _ _ => .dropWant
  | .cancelLoan _ => .cancelLoan
  | .declareLost _ => .declareLost
  | .advanceDay => .advanceDay
  | .selectNow => .selectNow
  | .formatRecords => .formatRecords
  | .picked _ => .picked
  | .pickFailed _ => .pickFailed
  | .shelve _ => .shelve
  | .withdrawCopy _ => .withdrawCopy
  | .ejectBay _ => .ejectBay
  | .containItem _ => .containItem
  | .pingStation _ => .pingStation
  | .bagReplaced _ => .bagReplaced
  | .routeOff _ => .routeOff
  | .routeOn _ => .routeOn
  | .rejectContainer => .rejectContainer
  | .setParameter _ _ => .setParameter

end Sys2Proof.Machine
end

