-- ==== Sys2Proof/Decode.lean ====
section
/-! DEFINITION. Decoding. No row of spec/opcode_table.json has bits, so no word spells a command; the request frames of
section 11.1 are the one encoding the spec gives for commands, decoded and encoded here. -/

namespace Sys2Proof

open Sys2Proof.Machine

/-- The command a word spells by the table's bits: none, since no row has bits (log entry 28). -/
def decodeTableWord (_nbits _w : Nat) : Option Instr := none

/-- The command of a request taken (section 11.1). -/
def requestCommand (f : Frame) (atOnce : Bool) : ReqCode → Instr
  | .takeNotice => .takeNotice f
  | .portStatus => .portStatus f
  | .portReset => .portReset f
  | .defineTitle => .defineTitle f atOnce
  | .stageBegin => .stageBegin f atOnce
  | .stageBlock => .stageBlock f atOnce
  | .retireTitle => .retireTitle f atOnce
  | .addCopies => .addCopies f atOnce
  | .removeCopy => .removeCopy f atOnce
  | .enrolPatron => .enrolPatron f atOnce
  | .amendPatron => .amendPatron f atOnce
  | .removePatron => .removePatron f atOnce
  | .addWant => .addWant f atOnce
  | .dropWant => .dropWant f atOnce
  | .cancelLoan => .cancelLoan f atOnce
  | .declareLost => .declareLost f atOnce
  | .advanceDay => .advanceDay f atOnce
  | .selectNow => .selectNow f atOnce
  | .formatRecords => .formatRecords f atOnce
  | .picked => .picked f atOnce
  | .pickFailed => .pickFailed f atOnce
  | .shelve => .shelve f atOnce
  | .withdrawCopy => .withdrawCopy f atOnce
  | .ejectBay => .ejectBay f atOnce
  | .containItem => .containItem f atOnce
  | .pingStation => .pingStation f atOnce
  | .bagReplaced => .bagReplaced f atOnce
  | .routeOff => .routeOff f atOnce
  | .routeOn => .routeOn f atOnce
  | .rejectContainer => .rejectContainer f atOnce
  | .setParameter => .setParameter f atOnce
  | .titleQuery => .titleQuery f
  | .patronQuery => .patronQuery f
  | .loanQuery => .loanQuery f
  | .channelQuery => .channelQuery f
  | .stationQuery => .stationQuery f
  | .binQuery => .binQuery f
  | .parameterQuery => .parameterQuery f

/-- The command that the bytes of a request bring on a port, once enough of them are shifted in for the request to be
taken; none before (R168, R195). -/
def decodeFrame (p : Port) (atOnce : Bool) (bytes : List Byte) : Option Instr :=
  let header := bytes.take 7
  let length := natOfBytes (slice 1 2 header)
  if bytes.length < 7 then none
  else if headerMalformed header then some (.malformedHeader p header)
  else if bytes.length < 7 + length then none
  else
    let f : Frame := { port := p, key := BitVec.ofNat 24 (natOfBytes (slice 3 3 header)), payload := slice 7 length bytes }
    match bytes with
    | [] => none
    | code :: _ =>
      match codeOf code.toNat with
      | some r => some (requestCommand f atOnce r)
      | none => some (.unknownRequestCode f code)

/-- The bytes of a request frame (section 11.1). -/
def frameBytes (code : Byte) (f : Frame) : List Byte :=
  let head := code :: (bytesOfNat 2 f.payload.length ++ bytesOfNat 3 f.key.toNat)
  head ++ checkByte head :: f.payload

/-- The request a command takes: its code, its frame and the hand-over; none for any other command. -/
def requestOf : Instr → Option (ReqCode × Frame × Bool)
  | .partReset => none
  | .formatMarkRead _ => none
  | .recordLoadComplete _ => none
  | .recordsReady => none
  | .unitWriteComplete _ _ => none
  | .unitWriteAckTimeout => none
  | .overdueScanVisit => none
  | .exchangeVoid _ => none
  | .replyEnd _ => none
  | .malformedHeader _ _ => none
  | .unknownRequestCode _ _ => none
  | .takeNotice f => some (.takeNotice, f, false)
  | .portStatus f => some (.portStatus, f, false)
  | .portReset f => some (.portReset, f, false)
  | .portResetLine _ => none
  | .postedApplicationStart _ => none
  | .defineTitle f atOnce => some (.defineTitle, f, atOnce)
  | .stageBegin f atOnce => some (.stageBegin, f, atOnce)
  | .stageBlock f atOnce => some (.stageBlock, f, atOnce)
  | .storeTransferComplete => none
  | .stagingWriteComplete => none
  | .stagingIdleExpiry _ => none
  | .retireTitle f atOnce => some (.retireTitle, f, atOnce)
  | .withdrawalWalkStep => none
  | .addCopies f atOnce => some (.addCopies, f, atOnce)
  | .removeCopy f atOnce => some (.removeCopy, f, atOnce)
  | .enrolPatron f atOnce => some (.enrolPatron, f, atOnce)
  | .amendPatron f atOnce => some (.amendPatron, f, atOnce)
  | .removePatron f atOnce => some (.removePatron, f, atOnce)
  | .addWant f atOnce => some (.addWant, f, atOnce)
  | .dropWant f atOnce => some (.dropWant, f, atOnce)
  | .restoration _ => none
  | .loansOutDecrease _ => none
  | .cancelLoan f atOnce => some (.cancelLoan, f, atOnce)
  | .declareLost f atOnce => some (.declareLost, f, atOnce)
  | .advanceDay f atOnce => some (.advanceDay, f, atOnce)
  | .selectNow f atOnce => some (.selectNow, f, atOnce)
  | .selectionVisit => none
  | .formatRecords f atOnce => some (.formatRecords, f, atOnce)
  | .picked f atOnce => some (.picked, f, atOnce)
  | .pickFailed f atOnce => some (.pickFailed, f, atOnce)
  | .shelve f atOnce => some (.shelve, f, atOnce)
  | .withdrawCopy f atOnce => some (.withdrawCopy, f, atOnce)
  | .ejectBay f atOnce => some (.ejectBay, f, atOnce)
  | .latchEjectPulseEnd _ => none
  | .containItem f atOnce => some (.containItem, f, atOnce)
  | .pingStation f atOnce => some (.pingStation, f, atOnce)
  | .bagReplaced f atOnce => some (.bagReplaced, f, atOnce)
  | .routeOff f atOnce => some (.routeOff, f, atOnce)
  | .routeOn f atOnce => some (.routeOn, f, atOnce)
  | .rejectContainer f atOnce => some (.rejectContainer, f, atOnce)
  | .setParameter f atOnce => some (.setParameter, f, atOnce)
  | .titleQuery f => some (.titleQuery, f, false)
  | .patronQuery f => some (.patronQuery, f, false)
  | .loanQuery f => some (.loanQuery, f, false)
  | .channelQuery f => some (.channelQuery, f, false)
  | .stationQuery f => some (.stationQuery, f, false)
  | .binQuery f => some (.binQuery, f, false)
  | .parameterQuery f => some (.parameterQuery, f, false)
  | .delayedEntryStart _ => none
  | .delayedResultComplete _ _ _ => none
  | .discardTimerExpiry _ _ _ => none
  | .bayPresenceOn _ => none
  | .bayPresenceOff _ => none
  | .identityRecordReceived _ _ => none
  | .identifyStallExpiry _ => none
  | .eraseReadyRise _ => none
  | .eraseTimeLimitExpiry _ => none
  | .eraseRereadReceived _ _ => none
  | .eraseRereadStallExpiry _ => none
  | .rehomeTimerExpiry _ => none
  | .lampChainSendEnd => none
  | .headerWriteEnd _ => none
  | .channelStoreReadComplete _ _ => none
  | .imageBlockWriteEnd _ => none
  | .indexBlockWriteEnd _ => none
  | .verifyBlockReadEnd _ _ => none
  | .writeTagEnd _ => none
  | .drainConfirmation _ => none
  | .cartridgeStallExpiry _ => none
  | .retryEraseEnd _ => none
  | .retryEraseLimitExpiry _ => none
  | .labelAnswer _ => none
  | .gateAnswer _ => none
  | .pingAnswer _ => none
  | .answerTimeExpiry => none
  | .lineAnswerDiscarded _ => none
  | .broadcastQuietEnd => none
  | .closeTimerExpiry _ => none
  | .returnsPresenceRise => none
  | .returnsPresenceFall => none
  | .readTagAnswer _ => none
  | .tagReadTimerExpiry => none
  | .dwellTimerExpiry => none
  | .dropoutTimerExpiry => none
  | .clearTimerExpiry => none
  | .departureTimerExpiry => none
  | .exchangeEnd _ => none
  | .portResetLineRelease _ => none
  | .lineCommandEnd => none
  | .cartridgeReadyRise _ => none

/-- The port, the hand-over and the bytes of a request command; none for a command that is no request. -/
def encodeFrame (i : Instr) : Option (Port × Bool × List Byte) :=
  match i with
  | .malformedHeader p header => some (p, false, header)
  | .unknownRequestCode f code => some (f.port, false, frameBytes code f)
  | _ => (requestOf i).map (fun (c, f, atOnce) => (f.port, atOnce, frameBytes (BitVec.ofNat 8 (codeNumber c)) f))

end Sys2Proof
end

