-- ==== Sys2Proof/Machine/Titles.lean ====
section
/-! DEFINITION. Titles and the Title Store (01): the application of the title requests, staging, pins, store damage,
eviction and retirement. A function `apply…` is the application of a posted request at its owning block (R172). -/

namespace Sys2Proof.Machine

/-! ### Pins and store damage (R13 to R15) -/

/-- What a pin count of 0 does, by the title's state (R14): a RETIRING record is freed with its runs, a DAMAGED title
becomes ABSENT. -/
def State.settleUnpinned (n : Nat) (w : Bool) (c : CartTitle) (s : State) : State :=
  match c.state with
  | .retiring => (s.freeRuns c).dropTitle n
  | .damaged => (s.freeRuns c).saveTitle n { withdrawing := w, body := .cart c.becomeAbsent }
  | .absent => s
  | .staging => s
  | .resident => s

/-- One pin of a title is released (R14). -/
def State.unpin (n : Nat) (s : State) : State :=
  match s.title n with
  | some { withdrawing := w, body := .cart c } =>
    let c' := { c with pins := c.pins - 1 }
    let t := s.putTitle n { withdrawing := w, body := .cart c' }
    if c'.pins = 0 then t.settleUnpinned n w c' else t
  | _ => s

/-- Every title of a loan's title list is unpinned (R14). -/
def State.unpinAll (es : List PlanEntry) (s : State) : State :=
  es.foldl (fun t e => t.unpin e.title) s

/-- A pin taken by a planned shipment; the change of last-use day goes with the visit's unit (R13, R88). -/
def State.pin (n : Nat) (s : State) : State :=
  match s.title n with
  | some { withdrawing := w, body := .cart c } =>
    s.putTitle n { withdrawing := w, body := .cart { c with pins := c.pins + 1, lastUse := s.dayCount } }
  | _ => s

/-- TITLE DAMAGED (R15). -/
def State.notifyDamaged (n : Nat) (c : CartTitle) (found : ImageSum) (s : State) : State :=
  s.notify .cp (note .titleDamaged n [c.declared.number, found.number])

/-- The Title Directory takes a store damage report (R15). -/
def State.damageReport (n : Nat) (found : ImageSum) (s : State) : State :=
  match s.title n with
  | some { withdrawing := w, body := .cart c } =>
    match c.state with
    | .resident =>
      let c' := { c with state := .damaged }
      let t := (s.saveTitle n { withdrawing := w, body := .cart c' }).notifyDamaged n c found
      if c.pins = 0 then t.settleUnpinned n w c' else t
    | .retiring =>
      let t := s.notifyDamaged n c found
      if c.pins = 0 then t.settleUnpinned n w c else t
    | .damaged => if c.pins = 0 then s.settleUnpinned n w c else s
    | .absent => s
    | .staging => s
  | _ => s

/-! ### DEFINE TITLE (R2) -/

/-- The record a definition creates (R2). No rule gives its staging sum, which has a meaning in STAGING only (section
1.1): it is 0 (DESIGN CHOICE, log entry 48). -/
def TitleDef.record (today : Nat) : TitleDef → Title
  | .cart kind length declared =>
    { withdrawing := false
      body := .cart
        { kind := kind, length := length, declared := declared, state := .absent, run1 := none, run2 := none,
          received := 0, stagingSum := .zero, pins := 0, lastUse := today, idleTimer := none } }
  | .vol location volumes =>
    { withdrawing := false, body := .vol { owned := 0, onShelf := 0, location := location, volumes := volumes } }

def applyDefineTitle (n : Nat) (d : TitleDef) (s : State) : State :=
  if (s.title n).isSome then s.refuse .cp .defineTitle n .duplicate []
  else if Config.maxTitles ≤ s.titles.length then s.refuse .cp .defineTitle n .tableFull []
  else (s.saveTitle n (d.record s.dayCount)).endPosted .cp

/-! ### STAGE BEGIN, allocation and eviction (R5 to R7) -/

/-- The title evicted next: RESIDENT with pin count 0, oldest last-use day, then lowest title number (R6). -/
def victim : Table Title → Option (Nat × Bool × CartTitle)
  | [] => none
  | (n, t) :: rest =>
    match t.body with
    | .cart c =>
      if c.state = .resident ∧ c.pins = 0 then
        match victim rest with
        | none => some (n, t.withdrawing, c)
        | some v => if v.2.2.lastUse < c.lastUse then some v else some (n, t.withdrawing, c)
      else victim rest
    | .vol _ => victim rest

/-- The extents a title holds. -/
def CartTitle.extentCount (c : CartTitle) : Nat := (c.runs.map Run.count).sum

/-- One eviction (R6). -/
def State.evict (n : Nat) (w : Bool) (c : CartTitle) (s : State) : State :=
  ((s.freeRuns c).saveTitle n { withdrawing := w, body := .cart c.becomeAbsent }).notify .cp
    (note .titleEvicted n [c.lastUse, c.extentCount])

/-- How an allocation stands: runs found, failed with no victim left, or held before its next event for want of a place
in the write queue (R5, R6, R188). -/
inductive Allocation
  | found (r1 : Run) (r2 : Option Run)
  | failed
  | held
  deriving DecidableEq, Repr

/-- Allocation with evictions one at a time until it succeeds or no victim remains (R5, R6). Each eviction is an event of
its own and is not taken while the write queue is full (R188); neither is the staging that a success brings. The first
argument bounds the evictions by the titles there are. -/
def allocateEvicting : Nat → Nat → State → State × Allocation
  | 0, _, s => (s, .failed)
  | k + 1, n, s =>
    match allocate n s.freeMap with
    | some (r1, r2) => if s.writeQueue.length < Config.maxUnits then (s, .found r1 r2) else (s, .held)
    | none =>
      match victim s.titles with
      | none => (s, .failed)
      | some (v, w, c) =>
        if s.writeQueue.length < Config.maxUnits then allocateEvicting k n (s.evict v w c) else (s, .held)

/-- STAGE BEGIN (R7). Held before an eviction or its staging, it stays in application with the evictions already made, and
goes on by trying the steps of R5 again (R6, R188, log entry 8). -/
def applyStageBegin (n : Nat) (s : State) : State :=
  match s.title n with
  | none => s.refuse .cp .stageBegin n .unknownTitle []
  | some { body := .vol _, .. } => s.refuse .cp .stageBegin n .wrongState []
  | some { withdrawing := w, body := .cart c } =>
    match c.state with
    | .damaged => s.refuse .cp .stageBegin n .pinned []
    | .staging => s.refuse .cp .stageBegin n .wrongState []
    | .resident => s.refuse .cp .stageBegin n .wrongState []
    | .retiring => s.refuse .cp .stageBegin n .wrongState []
    | .absent =>
      match allocateEvicting (s.titles.length + 1) (extentsFor c.length) s with
      | (t, .failed) => t.refuse .cp .stageBegin n .storeFull []
      | (t, .held) => t.hold (.postedApplicationStart .cp)
      | (t, .found r1 r2) =>
        let t := { t with freeMap := r2.toList.foldl (fun m r => takeFree r m) (takeFree r1 t.freeMap) }
        (t.saveTitle n
          { withdrawing := w
            body := .cart
              { c with
                state := .staging, run1 := some r1, run2 := r2, received := 0, stagingSum := .zero
                idleTimer := some (t.now + t.stagingIdleTime) } }).endPosted .cp

/-! ### STAGE BLOCK and the staging writer (R8 to R10) -/

def applyStageBlock (n index : Nat) (bytes : List Byte) (s : State) : State :=
  match s.title n with
  | none => s.refuse .cp .stageBlock n .unknownTitle []
  | some { body := .vol _, .. } => s.refuse .cp .stageBlock n .wrongState []
  | some { withdrawing := w, body := .cart c } =>
    if c.state ≠ .staging then s.refuse .cp .stageBlock n .wrongState []
    else if index ≠ c.received then s.refuse .cp .stageBlock n .badBlockIndex [c.received]
    else
      let c' :=
        { c with
          received := c.received + 1
          stagingSum := c.stagingSum.addBytes bytes
          idleTimer := if c.received + 1 < c.length then some (s.now + s.stagingIdleTime) else none }
      let t := s.putTitle n { withdrawing := w, body := .cart c' }
      State.arbitrate
        { t with
          stagingWriter :=
            some { title := n, storeBlock := c.storeBlock index, bytes := bytes, transferred := false } }

/-- The comparison after the last block of an image (R10). The staging sum of a title that leaves STAGING is set to 0
(DESIGN CHOICE, log entry 48). -/
def State.finishStaging (n : Nat) (w : Bool) (c : CartTitle) (s : State) : State :=
  if c.stagingSum = c.declared then
    ((s.saveTitle n
        { withdrawing := w
          body := .cart
            { c with
              state := .resident, lastUse := s.dayCount, received := 0, stagingSum := .zero
              idleTimer := none } }).notify .cp (note .titleResident n [c.length])).trigger
  else
    ((s.freeRuns c).saveTitle n { withdrawing := w, body := .cart c.becomeAbsent }).notify .cp
      (noteFor .stageFailed n .sum [c.declared.number, c.stagingSum.number])

def takeStoreTransferComplete (s : State) : State :=
  if s.grant.isSome then s.endTransfer.arbitrate else s

def takeStagingWriteComplete (s : State) : State :=
  match s.stagingWriter with
  | none => s
  | some b =>
    if b.transferred || s.grant == some Requester.staging then
      let t := { s.endTransferOf Requester.staging with stagingWriter := none }
      let t :=
        match t.title b.title with
        | some { withdrawing := w, body := .cart c } =>
          if c.state = TitleState.staging ∧ c.received = c.length then t.finishStaging b.title w c else t
        | _ => t
      t.endPosted .cp
    else s

/-- The expiry of a staging idle timer (R11). -/
def takeStagingIdleExpiry (n : Nat) (s : State) : State :=
  match s.title n with
  | some { withdrawing := w, body := .cart c } =>
    match c.idleTimer with
    | none => s
    | some limit =>
      ((((s.expire limit).freeRuns c).saveTitle n { withdrawing := w, body := .cart c.becomeAbsent }).notify .cp
        (noteFor .stageFailed n .idle [c.received, c.length]))
  | _ => s

/-! ### Retirement (R16 to R18) -/

def applyRetireTitle (n : Nat) (s : State) : State :=
  match s.title n with
  | none => s.refuse .cp .retireTitle n .unknownTitle []
  | some t =>
    let retiring : Bool := match t.body with
      | .cart c => c.state == .retiring
      | .vol _ => false
    if retiring then s.refuse .cp .retireTitle n .wrongState []
    else { s.putTitle n { t with withdrawing := true } with walk := some { title := n, next := 0, changed := 0 } }

/-- The outcome once the withdrawal is complete (R17, R18); it ends the application of RETIRE TITLE. -/
def State.retirementOutcome (n : Nat) (s : State) : State :=
  match s.title n with
  | none => s.endPosted .cp
  | some { body := .vol v, .. } =>
    if v.onShelf < v.owned then
      (s.putTitle n { withdrawing := false, body := .vol v }).refuse .cp .retireTitle n .onLoan [v.owned, v.onShelf]
    else (s.dropTitle n).endPosted .cp
  | some { body := .cart c, .. } =>
    let retire := s.saveTitle n { withdrawing := false, body := .cart { c with state := .retiring } }
    let free := (s.freeRuns c).dropTitle n
    match c.state with
    | .absent => free.endPosted .cp
    | .staging => free.endPosted .cp
    | .resident => if c.pins = 0 then free.endPosted .cp else retire.endPosted .cp
    | .damaged => retire.endPosted .cp
    | .retiring => s.endPosted .cp

/-! ### Volume sets on the shelf (R19 to R21) -/

def applyAddCopies (n count : Nat) (s : State) : State :=
  match s.title n with
  | none => s.refuse .cp .addCopies n .unknownTitle []
  | some { body := .cart _, .. } => s.refuse .cp .addCopies n .wrongState []
  | some { withdrawing := w, body := .vol v } =>
    if Config.maxCopies < v.owned + count then s.refuse .cp .addCopies n .copiesLimit [v.owned]
    else
      ((s.saveTitle n
        { withdrawing := w
          body := .vol { v with owned := v.owned + count, onShelf := v.onShelf + count } }).trigger).endPosted .cp

def applyRemoveCopy (n : Nat) (s : State) : State :=
  match s.title n with
  | none => s.refuse .cp .removeCopy n .unknownTitle []
  | some { body := .cart _, .. } => s.refuse .cp .removeCopy n .wrongState []
  | some { withdrawing := w, body := .vol v } =>
    if v.owned = 0 then s.refuse .cp .removeCopy n .notFound []
    else if v.onShelf = 0 then s.refuse .cp .removeCopy n .onLoan []
    else
      (s.saveTitle n
        { withdrawing := w, body := .vol { v with owned := v.owned - 1, onShelf := v.onShelf - 1 } }).endPosted .cp

/-- A change of the copy counts of a volume title that a loan event brings, with the change to be handed in the event's
unit (R21). -/
def State.changeCopies (n : Nat) (f : VolTitle → VolTitle) (s : State) : State × WriteUnit :=
  match s.title n with
  | some { withdrawing := w, body := .vol v } =>
    let t : Title := { withdrawing := w, body := .vol (f v) }
    (s.putTitle n t, [.title n (some t.kept)])
  | _ => (s, [])

end Sys2Proof.Machine
end

