-- ==== Sys2Proof/Machine/Patrons.lean ====
section
/-! DEFINITION. Patrons and Want Lists (02): enrolment, amendment and removal, want-list edits, the withdrawal walk,
restoration, and the taking of a loans-out decrease. -/

namespace Sys2Proof.Machine

/-! ### Enrolment (R25 to R28) -/

def applyEnrolPatron (number allowance : Nat) (route : RouteNo) (hold : Bool) (s : State) : State :=
  if (s.reader number).isSome then s.refuse .cp .enrolPatron number .duplicate []
  else
    let slot := Table.freeKey 0 s.patrons
    if Config.slots ≤ slot then s.refuse .cp .enrolPatron number .tableFull []
    else
      (s.savePatron slot
        { number := number, allowance := allowance, loansOut := 0, returnsOpen := 0, route := route, hold := hold,
          wants := [] }).endPosted .cp

def applyAmendPatron (number allowance : Nat) (route : RouteNo) (hold : Bool) (s : State) : State :=
  match s.reader number with
  | none => s.refuse .cp .amendPatron number .unknownPatron []
  | some (slot, p) =>
    let p' := { p with allowance := allowance, route := route, hold := hold }
    let t := if p' = p then s else s.savePatron slot p'
    let t := if (p.hold && !hold) || p.allowance < allowance then t.trigger else t
    t.endPosted .cp

def applyRemovePatron (number : Nat) (s : State) : State :=
  match s.reader number with
  | none => s.refuse .cp .removePatron number .unknownPatron []
  | some (slot, p) =>
    if 0 < p.loansOut ∨ 0 < p.returnsOpen then
      s.refuse .cp .removePatron number .loansOut [p.loansOut, p.returnsOpen]
    else
      (State.hand [.patron slot none] { s with patrons := Table.erase slot s.patrons }).endPosted .cp

/-! ### Want lists (R32 to R35) -/

/-- A title a want list may take in: defined, not RETIRING, not withdrawing (R33, R36). -/
def State.wantable (s : State) (n : Nat) : Bool :=
  match s.title n with
  | none => false
  | some t =>
    !t.withdrawing &&
      match t.body with
      | .cart c => c.state != .retiring
      | .vol _ => true

/-- A changed want list, written to record memory (R32, R39). -/
def State.saveWants (slot : Nat) (p : Patron) (wants : List Nat) (s : State) : State :=
  s.savePatron slot { p with wants := wants }

def applyAddWant (number title : Nat) (front : Bool) (s : State) : State :=
  match s.reader number with
  | none => s.refuse .cp .addWant number .unknownPatron []
  | some (slot, p) =>
    if !s.wantable title then s.refuse .cp .addWant number .unknownTitle []
    else
      match s.liveLoanNaming number title with
      | some tag => s.refuse .cp .addWant number .onLoan [tag]
      | none =>
        if title ∈ p.wants then
          if front then
            if p.wants.head? = some title then s.endPosted .cp
            else ((s.saveWants slot p (title :: p.wants.filter (fun x => x != title))).trigger).endPosted .cp
          else s.refuse .cp .addWant number .duplicate [p.wants.findIdx (fun x => x == title) + 1]
        else if Config.maxWants ≤ p.wants.length then s.refuse .cp .addWant number .listFull []
        else
          let wants := if front then title :: p.wants else p.wants ++ [title]
          ((s.saveWants slot p wants).trigger).endPosted .cp

def applyDropWant (number title : Nat) (s : State) : State :=
  match s.reader number with
  | none => s.refuse .cp .dropWant number .unknownPatron []
  | some (slot, p) =>
    if title ∈ p.wants then (s.saveWants slot p (p.wants.filter (fun x => x != title))).endPosted .cp
    else s.refuse .cp .dropWant number .notFound []

/-- The walk takes the next slot whose want list holds the title, or is complete once no slot is left (R35, log entry
13). -/
def takeWithdrawalWalkStep (s : State) : State :=
  match s.walk with
  | none => s
  | some w =>
    match s.patrons.find? (fun e => decide (w.next ≤ e.1) && e.2.wants.contains w.title) with
    | some (slot, p) =>
      { s.saveWants slot p (p.wants.filter (fun x => x != w.title)) with
        walk := some { w with next := slot + 1, changed := w.changed + 1 } }
    | none => State.retirementOutcome w.title { s with walk := none }

/-! ### Restoration and decreases (R29, R36, R37) -/

/-- One of the requests handed over, and the others; the oldest where the choice names none (log entry 7). -/
def pickFrom {α : Type} (pick : Nat) (l : List α) : Option (α × List α) :=
  let i := if pick < l.length then pick else 0
  l[i]?.map (fun x => (x, l.eraseIdx i))

/-- The titles of a restoration that go back to the want list (R36 step 2). -/
def State.restorable (s : State) (patron : Nat) (titles : List Nat) : List Nat :=
  titles.filter (fun n => s.wantable n && (s.liveLoanNaming patron n).isNone)

/-- The Patron Table takes a restoration request as one event (R36, R37). -/
def State.restore (r : Restoration) (s : State) : State :=
  match s.reader r.patron with
  | none => s
  | some (slot, p) =>
    let back := s.restorable r.patron r.titles
    let whole := back ++ p.wants.filter (fun x => !back.contains x)
    let p' := { p with loansOut := p.loansOut - 1, wants := whole.take Config.maxWants }
    let t := if p'.wants = p.wants then s.putPatron slot p' else s.savePatron slot p'
    let t := t.trigger
    let dropped := whole.drop Config.maxWants
    if dropped.isEmpty then t else t.notify .cp (note .wantDropped p.number dropped)

def takeRestoration (pick : Nat) (s : State) : State :=
  match pickFrom pick s.restorations with
  | none => s
  | some (r, rest) => State.restore r { s with restorations := rest }

def takeLoansOutDecrease (pick : Nat) (s : State) : State :=
  match pickFrom pick s.decreases with
  | none => s
  | some (number, rest) => State.lowerLoansOut number { s with decreases := rest }

end Sys2Proof.Machine
end

