-- ==== Sys2Proof/Machine/Cell.lean ====
section
/-! DEFINITION. The operations that bays, copy queue and channels share: the blank pool and bayless jobs (R99 to R101),
the bay's erase and its line (R92, R97), the hand-over of jobs and the title start (R109, R115), the failing of a loan
(R57), and a channel's stop and release (R125, R126). -/

namespace Sys2Proof.Machine

/-! ### The blank pool (R73, R76, R100) -/

/-- The bays in rising order. -/
def allBays : List BayNo := List.finRange 16

/-- The bay stands in the blank pool: BLANK without release pending (section 5.6). -/
def Bay.inPool (x : Bay) : Bool := x.state == .blank && !x.releasePending

/-- The first bay of the pool's order that fits a need: smallest usable capacity, then lowest number (R73, R76). -/
def State.firstFit (s : State) (need : Nat) : Option BayNo :=
  allBays.foldl
    (fun best b =>
      if (s.bay b).inPool ∧ need ≤ (s.bay b).usable then
        match best with
        | none => some b
        | some c => if (s.bay b).usable < (s.bay c).usable then some b else best
      else best)
    none

/-- A job's need: its plan total less the index region (R79). -/
def Loan.need (l : Loan) : Nat := l.planTotal - Config.indexBlocks

/-- A bayless job is given a bay: the bay RESERVED for its loan, the loan's bay field set, attempt count 0, re-home
timer stopped (R99, R100). -/
def State.giveBay (tag : Nat) (b : BayNo) (s : State) : State :=
  match s.loan tag with
  | none => s
  | some l =>
    let t := s.setBay b { s.bay b with state := .reserved, tag := some tag }
    let t := t.saveLoan tag { l with bay := some b }
    t.updateJob tag (fun j => { j with bay := some b, attempts := 0, rehome := none })

/-- A job becomes bayless: it takes a fitting pool bay at once, or its re-home timer starts (R100, R101). -/
def State.seekBay (tag : Nat) (s : State) : State :=
  match s.loan tag with
  | none => s
  | some l =>
    match s.firstFit l.need with
    | some b => s.giveBay tag b
    | none => s.updateJob tag (fun j => { j with rehome := some (s.now + s.rehomeLimit) })

/-- Is a job bayless: no bay, no holder, its loan PLANNED (R108)? -/
def State.bayless (s : State) (j : Job) : Bool :=
  j.bay.isNone && j.holder.isNone &&
    match s.loan j.tag with
    | some l => l.state == .planned
    | none => false

/-- The need of a job's loan. -/
def State.needOf (s : State) (j : Job) : Nat :=
  match s.loan j.tag with
  | some l => l.need
  | none => 0

/-- A bay becomes BLANK: it goes to the oldest bayless job it fits, or joins the pool with a selection trigger (R99). -/
def State.becomeBlank (b : BayNo) (s : State) : State :=
  let t := s.setBay b { s.bay b with state := .blank, tag := none, eraseStarted := false, command := none }
  match s.copyQueue.find? (fun j => s.bayless j && decide (s.needOf j ≤ (s.bay b).usable)) with
  | some j => t.giveBay j.tag b
  | none => t.trigger

/-! ### The cartridge line (R92) -/

/-- Does a channel hold a bay's cartridge line? It holds it from its taking of the job until its release (R92). -/
def State.lineHeld (s : State) (b : BayNo) : Bool :=
  (s.chanA.state != .idle && s.chanA.bay == some b) || (s.chanB.state != .idle && s.chanB.bay == some b)

/-- The ERASE of an ERASING bay goes out once its line is free (R97). -/
def State.sendErase (b : BayNo) (s : State) : State :=
  let x := s.bay b
  if x.state = .erasing ∧ x.eraseStarted = false ∧ s.lineHeld b = false then
    s.setBay b
      { x with command := some (.erase, s.now + s.eraseTimeLimit), eraseStarted := true, ready := false }
  else s

/-- The READ IDENTITY of an IDENTIFYING bay goes out once its line is free (R92, R93). -/
def State.sendIdentity (b : BayNo) (s : State) : State :=
  let x := s.bay b
  if x.state = .identifying ∧ x.command = none ∧ s.lineHeld b = false then
    s.setBay b { x with command := some (.readIdentity, s.now + s.bayStallTime), ready := false }
  else s

/-- A channel has released a bay's line: a command the Bay Controller holds waiting for it is sent (R92). -/
def State.lineFreed (b : BayNo) (s : State) : State :=
  (s.sendErase b).sendIdentity b

/-- A bay enters ERASING, its latch ENGAGED: an eject pulse in progress ends (R90, R97, log entry 25). -/
def State.startErase (b : BayNo) (s : State) : State :=
  (s.setBay b
    { s.bay b with
      state := .erasing, tag := none, eraseStarted := false, command := none, ejectPulse := none }).sendErase b

/-- The number of a reject reason among the reason codes (section 11.1). -/
def RejectReason.reason : RejectReason → Reason
  | .unsuited => .unsuited
  | .worn => .worn
  | .eraseFault => .eraseFault
  | .writeFault => .writeFault

/-- A bay enters REJECTED, with its BAY REJECTED notice (R107). -/
def State.rejectBay (b : BayNo) (why : RejectReason) (s : State) : State :=
  let x := s.bay b
  let t :=
    s.setBay b
      { x with state := .rejected, reject := some why, tag := none, eraseStarted := false, command := none }
  t.notify .fp
    (noteFor .bayRejected b.val why.reason
      [orZero (x.identity.map Identity.serial), orZero (x.identity.map Identity.wear)])

/-! ### Failing a loan (R57) -/

/-- A loan handed to both ports' notice queues. -/
def State.notifyBoth (n : Notice) (s : State) : State := (s.notify .cp n).notify .fp n

/-- A PLANNED or COPYING cartridge loan is closed as FAILED; a report for any other tag is void (R57). The loan's unit is
handed before those of the titles its unpinning changes (DESIGN CHOICE, log entry 40). -/
def State.failLoan (tag : Nat) (why : Reason) (title : Nat) (s : State) : State :=
  match s.loan tag with
  | none => s
  | some l =>
    if l.medium = .cartridge ∧ (l.state = .planned ∨ l.state = .copying) then
      let t := s.closeLoan tag []
      let t :=
        { t with
          restorations := t.restorations ++ [Restoration.mk l.patron (l.titles.map PlanEntry.title)] }
      let t := (t.leaveQueue tag).unpinAll l.titles
      let t := match l.bay with
        | some b => t.startErase b
        | none => t
      t.notifyBoth (noteFor .copyFailed tag why [l.patron, title, orOnes 4 (l.bay.map (·.val))])
    else s

/-! ### Channels: commands, title start, release (R115, R116, R126) -/

/-- A command comes due on a channel's cartridge line: sent while ready is high, else waiting for ready; its time limit
starts now (R116). -/
def State.dueCommand (c : Chan) (cmd : CartCommand) (limit : Nat) (s : State) : State :=
  let x := s.chan c
  match x.bay with
  | none => s
  | some b =>
    if (s.bay b).ready then
      (s.setBay b { s.bay b with ready := false }).setChan c { x with activity := .commandSent cmd (s.now + limit) }
    else s.setChan c { x with activity := .commandDue cmd (s.now + limit) }

/-- A command under the bay stall time (R116). -/
def State.dueStalled (c : Chan) (cmd : CartCommand) (s : State) : State := s.dueCommand c cmd s.bayStallTime

/-- The end of a channel's job: the line is released, then the job, which becomes bayless if it has no bay; the channel
is IDLE with its context cleared (R92, R126). The hand-over of further jobs is `handOver`. -/
def State.release (c : Chan) (s : State) : State :=
  let x := s.chan c
  let t := s.setChan c .cleared
  let t := match x.bay with
    | some b => t.lineFreed b
    | none => t
  match x.tag with
  | none => t
  | some tag =>
    match t.job tag with
    | none => t
    | some j =>
      if j.holder = some c then
        let t := t.updateJob tag (fun j => { j with holder := none })
        if j.bay.isNone then t.seekBay tag else t
      else t

/-- The run descriptor sets of a title (R112). -/
def runSets (c : CartTitle) : RunSet × RunSet :=
  match c.run1, c.run2 with
  | some r1, some r2 =>
    ({ first := Config.extentBlocks * r1.first
       last := Config.extentBlocks * r1.first + Config.extentBlocks * r1.count - 1
       now := Config.extentBlocks * r1.first
       count := r1.count },
     { first := Config.extentBlocks * r2.first
       last := Config.extentBlocks * r2.first + (c.length - Config.extentBlocks * r1.count) - 1
       now := Config.extentBlocks * r2.first
       count := r2.count })
  | some r1, none =>
    ({ first := Config.extentBlocks * r1.first
       last := Config.extentBlocks * r1.first + c.length - 1
       now := Config.extentBlocks * r1.first
       count := r1.count }, .zero)
  | none, _ => (.zero, .zero)

/-- The plan entry at a channel's title index, which counts from 1 (R111). -/
def Channel.entry (x : Channel) : Option PlanEntry :=
  if x.index = 0 then none else x.titles[x.index - 1]?

/-- The CARTRIDGE title a title number names. -/
def State.cart (s : State) (n : Nat) : Option CartTitle :=
  match s.title n with
  | some { body := .cart c, .. } => some c
  | _ => none

/-- A channel's own failure report, after which it releases the job and the line (R57, R115, R118). -/
def State.channelFails (c : Chan) (tag : Nat) (why : Reason) (title : Nat) (s : State) : State :=
  (s.failLoan tag why title).release c

/-- The title start: a RESIDENT or RETIRING title is copied, its header block first; any other title fails the loan with
reason DAMAGED (R112, R115, log entry 19). -/
def State.titleStart (c : Chan) (s : State) : State :=
  let x := s.chan c
  match x.tag, x.entry with
  | some tag, some e =>
    match s.cart e.title with
    | some k =>
      if k.state = .resident ∨ k.state = .retiring then
        let sets := runSets k
        let t :=
          s.setChan c
            { x with
              state := .header, set1 := sets.1, set2 := sets.2, second := false, sum := .zero, block := e.offset }
        t.dueStalled c (.writeBlock e.offset (headerBlock x.index e.title tag k))
      else s.channelFails c tag .damaged e.title
    | none => s.channelFails c tag .damaged e.title
  | _, _ => s

/-! ### The hand-over of jobs (R109) -/

/-- The oldest takeable job, with its bay and loan: no holder, loan PLANNED, bay present and RESERVED (R108). -/
def State.takeable (s : State) : Option (Job × BayNo × Loan) :=
  s.copyQueue.findSome? (fun j =>
    match j.holder, j.bay, s.loan j.tag with
    | none, some b, some l =>
      if l.state = .planned ∧ (s.bay b).state = .reserved then some (j, b, l) else none
    | _, _, _ => none)

/-- The IDLE channel that is given the next job, A before B (R109). -/
def State.idleChannel (s : State) : Option Chan :=
  if s.chanA.state = .idle then some .a else if s.chanB.state = .idle then some .b else none

/-- A channel takes a job, as one event at the copy queue, the Loan Table and the Bay Controller (R109). -/
def State.takeJob (c : Chan) (j : Job) (b : BayNo) (l : Loan) (s : State) : State :=
  let t := s.updateJob j.tag (fun j => { j with holder := some c })
  let t := t.saveLoan j.tag { l with state := .copying }
  let t := t.setBay b { t.bay b with state := .writing }
  let t :=
    t.setChan c
      { Channel.cleared with
        state := .header, tag := some j.tag, bay := some b, titles := l.titles, index := 1, attempts := j.attempts }
  t.titleStart c

/-- Takeable jobs go to IDLE channels, oldest first, as long as there are both and the write queue has a place for the
taking, an event of its own (R109, R188); the first argument bounds the takings by the jobs there are. -/
def handOverUpTo : Nat → State → State
  | 0, s => s
  | n + 1, s =>
    match s.idleChannel, s.takeable with
    | some c, some (j, b, l) => if s.fits (s.takeJob c j b l) then handOverUpTo n (s.takeJob c j b l) else s
    | _, _ => s

/-- The copy queue decides what the IDLE channels take (R109). -/
def State.handOver (s : State) : State := handOverUpTo s.copyQueue.length s

/-! ### Stopping (R126) -/

/-- A channel is told to stop; it releases at once where nothing, or nothing but a request or an unsent command, is in
progress, or where the cartridge has gone (R126, log entry 18). A cancel lets a retry erase run to its end or its limit,
though it still wait for ready (R127). -/
def State.tellStop (c : Chan) (cause : StopCause) (s : State) : State :=
  let x := s.chan c
  if x.state = .idle ∨ x.stopping then s
  else
    let t := s.setChan c { x with stopping := true, stopCause := some cause }
    match x.activity with
    | .none => t.release c
    | .storeRequest => t.release c
    | .commandDue cmd _ => if cmd = .erase ∧ cause = .cancel then t else t.release c
    | .storeRead _ => t
    | .commandSent _ _ => if cause = .removal then t.release c else t

end Sys2Proof.Machine
end

