-- ==== Sys2Proof/Machine/Loans.lean ====
section
/-! DEFINITION. Loans and the Day Count (03): the loan requests of both ports, the closing of a returned cartridge loan,
ADVANCE DAY and the overdue scan. -/

namespace Sys2Proof.Machine

/-- The first title number of a loan's title list; a VOLUME loan has exactly one (section 3.1). -/
def Loan.firstTitle (l : Loan) : Nat :=
  match l.titles with
  | e :: _ => e.title
  | [] => 0

/-- LOAN CLOSED (R44). -/
def State.notifyClosed (tag : Nat) (why : Reason) (values : List Nat) (s : State) : State :=
  s.notify .cp (noteFor .loanClosed tag why values)

/-! ### PICKED and PICK FAILED (R48, R49) -/

def applyPicked (tag : Nat) (s : State) : State :=
  match s.loan tag with
  | none => s.refuse .fp .picked tag .unknownLoan []
  | some l =>
    if l.medium = .volume ∧ l.state = .planned then (s.saveLoan tag { l with state := .picked }).endPosted .fp
    else s.refuse .fp .picked tag .wrongState [l.state.number]

def applyPickFailed (tag : Nat) (s : State) : State :=
  match s.loan tag with
  | none => s.refuse .fp .pickFailed tag .unknownLoan []
  | some l =>
    if l.medium = .volume ∧ l.state = .planned then
      let (t, u) := s.changeCopies l.firstTitle (fun v => { v with owned := v.owned - 1 })
      let t := t.closeLoan tag u
      let t :=
        { t with
          restorations := t.restorations ++ [Restoration.mk l.patron (l.titles.map PlanEntry.title)] }
      (t.notifyClosed tag .pickFailed [l.patron, l.firstTitle]).endPosted .fp
    else s.refuse .fp .pickFailed tag .wrongState [l.state.number]

/-! ### SHELVE and WITHDRAW COPY (R54) -/

def applyShelve (tag : Nat) (s : State) : State :=
  match s.loan tag with
  | none => s.refuse .fp .shelve tag .unknownLoan []
  | some l =>
    if l.medium = .volume ∧ l.state = .returning then
      let (t, u) := s.changeCopies l.firstTitle (fun v => { v with onShelf := v.onShelf + 1 })
      let t := (t.closeLoan tag u).lowerReturnsOpen l.patron
      ((t.notifyClosed tag .shelved [l.patron, l.medium.number]).trigger).endPosted .fp
    else s.refuse .fp .shelve tag .wrongState []

def applyWithdrawCopy (tag : Nat) (s : State) : State :=
  match s.loan tag with
  | none => s.refuse .fp .withdrawCopy tag .unknownLoan []
  | some l =>
    if l.medium = .volume ∧ l.state = .returning then
      let (t, u) := s.changeCopies l.firstTitle (fun v => { v with owned := v.owned - 1 })
      let t := (t.closeLoan tag u).lowerReturnsOpen l.patron
      (t.notifyClosed tag .withdrawn [l.patron, l.firstTitle]).endPosted .fp
    else s.refuse .fp .withdrawCopy tag .wrongState []

/-! ### CANCEL LOAN (R55, R127) -/

/-- A loans-out decrease handed over to the Patron Table (R29, log entry 6). -/
def State.handDecrease (patron : Nat) (s : State) : State :=
  { s with decreases := s.decreases ++ [patron] }

/-- RESHELVE (R55). -/
def State.notifyReshelve (tag title : Nat) (s : State) : State :=
  let place := match s.title title with
    | some { body := .vol v, .. } => v.location
    | _ => 0
  s.notify .fp (note .reshelve tag [title, place])

/-- What the cancel of a cartridge loan brings beside the closing: pins, job, bay and channel (R55). `holder` is the
channel that held the job of a COPYING loan. -/
def State.cancelCartridge (tag : Nat) (l : Loan) (holder : Option Chan) (s : State) : State :=
  let t := if l.state = .written then s else (s.unpinAll l.titles).leaveQueue tag
  let t := match l.bay with
    | some b => t.startErase b
    | none => t
  match holder with
  | some c => if l.state = .copying then t.tellStop c .cancel else t
  | none => t

/-- CANCEL LOAN of a loan it is taken for (R55). -/
def State.cancel (tag : Nat) (l : Loan) (s : State) : State :=
  let holder := (s.job tag).bind Job.holder
  let t := match l.medium with
    | .cartridge => (s.closeLoan tag []).cancelCartridge tag l holder
    | .volume =>
      let (t, u) := s.changeCopies l.firstTitle (fun v => { v with onShelf := v.onShelf + 1 })
      ((t.closeLoan tag u).trigger).notifyReshelve tag l.firstTitle
  let t := (t.handDecrease l.patron).notify .cp (note .cancelled tag [l.patron, l.state.number])
  t.handOver

def applyCancelLoan (tag : Nat) (s : State) : State :=
  match s.loan tag with
  | none => s.refuse .cp .cancelLoan tag .unknownLoan []
  | some l =>
    match l.state with
    | .bagged => s.refuse .cp .cancelLoan tag .tooLate []
    | .mailed => s.refuse .cp .cancelLoan tag .wrongState []
    | .overdue => s.refuse .cp .cancelLoan tag .wrongState []
    | .returning => s.refuse .cp .cancelLoan tag .wrongState []
    | .planned => (s.cancel tag l).endPosted .cp
    | .copying => (s.cancel tag l).endPosted .cp
    | .written => (s.cancel tag l).endPosted .cp
    | .picked => (s.cancel tag l).endPosted .cp

/-! ### DECLARE LOST (R56) -/

def applyDeclareLost (tag : Nat) (s : State) : State :=
  match s.loan tag with
  | none => s.refuse .cp .declareLost tag .unknownLoan []
  | some l =>
    if l.state = .mailed ∨ l.state = .overdue then
      let (t, u) := match l.medium with
        | .cartridge => (s, [])
        | .volume => s.changeCopies l.firstTitle (fun v => { v with owned := v.owned - 1 })
      let t := (t.closeLoan tag u).handDecrease l.patron
      (t.notifyClosed tag .lost [l.patron, l.state.number]).endPosted .cp
    else s.refuse .cp .declareLost tag .wrongState []

/-! ### Returns (R52, R53, R164) -/

/-- RETURN ACCEPTED to both ports (R164). -/
def State.notifyAccepted (tag : Nat) (l : Loan) (gaps longest departures : Nat) (s : State) : State :=
  (s.notify .cp (note .returnAccepted tag [l.patron])).notify .fp
    (note .returnAccepted tag [l.medium.number, gaps, longest, departures])

/-- The closing of a MAILED, OVERDUE or RETURNING cartridge loan whose cartridge is identified in a bay (R53). RETURN
ACCEPTED stands before LOAN CLOSED in the CP queue (DESIGN CHOICE, log entry 39). -/
def State.closeIdentified (tag : Nat) (l : Loan) (s : State) : State :=
  let t := s.closeLoan tag []
  let t :=
    if l.state = .returning then t.lowerReturnsOpen l.patron
    else (t.lowerLoansOut l.patron).notifyAccepted tag l 0 0 0
  t.notifyClosed tag .returned [l.patron, l.medium.number]

/-! ### The day count and the overdue scan (R58 to R60) -/

def applyAdvanceDay (s : State) : State :=
  s.hand [.day (min Config.maxDay (s.dayCount + 1))]

/-- The scan ends, and with it the application of the ADVANCE DAY that started it (R59, R60); after the scan of records
ready the CP posted queue is free (R63), and its head is handed over in the same event (DESIGN CHOICE, log entry 5). -/
def State.endScan (s : State) : State :=
  let t := { s with scan := none }
  if s.cp.applying && s.cp.posted.head? == some .advanceDay then t.endPosted .cp else t.setPort .cp t.cp.handHead

/-- The scan starts from the lowest tag held; over an empty table it has nothing to visit and ends at once (R60, log
entry 15). -/
def State.startScan (s : State) : State :=
  let t := { s with scan := some { cursor := 0, waiting := false } }
  if s.loans.isEmpty then t.endScan else t

/-- The scan has visited a tag; it ends after the highest tag held (R60). -/
def State.scanVisited (tag : Nat) (s : State) : State :=
  if (Table.above tag s.loans).isSome then { s with scan := some { cursor := tag, waiting := false } } else s.endScan

/-- Is a loan late: MAILED with its due day below the day count (R60)? -/
def Loan.late (l : Loan) (today : Nat) : Bool :=
  l.state == .mailed &&
    match l.dueDay with
    | some d => decide (d < today)
    | none => false

/-- A visit of the overdue scan. A scan that waits at a full CP notice queue makes none until it resumes (R60). -/
def takeOverdueScanVisit (s : State) : State :=
  match s.scan with
  | none => s
  | some sc =>
    if sc.waiting then s
    else
      match Table.above sc.cursor s.loans with
      | none => s.endScan
      | some (tag, l) =>
        if l.late s.dayCount then
          if s.cp.notices.length < Config.maxNotices then
            let t := s.saveLoan tag { l with state := .overdue }
            (t.notify .cp (note .overdue tag [l.patron, orZero l.dueDay, s.dayCount])).scanVisited tag
          else { s with scan := some { sc with waiting := true } }
        else s.scanVisited tag

/-- A waiting scan resumes once the CP notice queue has room (R60, R180). -/
def State.resumeScan (s : State) : State :=
  match s.scan with
  | some sc => if s.cp.notices.length < Config.maxNotices then { s with scan := some { sc with waiting := false } } else s
  | none => s

end Sys2Proof.Machine
end

