-- ==== Sys2Proof/Machine/Bays.lean ====
section
/-! DEFINITION. Cartridge Bays (05): presence, identification and its one classification, erase, the re-home limit, the
removal by the bay's state, EJECT BAY, the lamp chain's sends, and the rise of a ready line. -/

namespace Sys2Proof.Machine

/-! ### Capacity (R76) -/

/-- The clamped capacity C of a reported capacity (R76). -/
def clampedCapacity (reported : Nat) : Nat := min reported Config.capacityClamp

/-- The usable capacity U of a clamped capacity: 0 below 4,096 blocks, where a cartridge has no U (R76, R94). -/
def usableCapacity (c : Nat) : Nat := if c < Config.minCapacity then 0 else c - Config.indexBlocks - c / 64

/-! ### Presence (R93) -/

/-- A cartridge seated in an EMPTY bay: IDENTIFYING, its line high, READ IDENTITY due (R93). -/
def State.seat (b : BayNo) (s : State) : State :=
  (s.setBay b { s.bay b with state := .identifying, ready := true }).sendIdentity b

/-- The level of a bay's presence switch, sampled when it changes, whatever becomes of the event (R89, log entry 8). -/
def State.samplePresence (b : BayNo) (on : Bool) (s : State) : State := s.setBay b { s.bay b with presence := on }

/-- A cartridge seated: an EMPTY bay of a READY part is IDENTIFYING; for any other bay the event is discarded (R93). -/
def takeBayPresenceOn (b : BayNo) (s : State) : State :=
  if s.isReady ∧ (s.bay b).state = .empty then s.seat b else s

/-! ### Identification (R93 to R96) -/

/-- The cartridge loan in WRITTEN, MAILED, OVERDUE or RETURNING that an identity names (R94). -/
def State.namedLoan (s : State) (i : Identity) : Option (Nat × Loan) :=
  match s.loan i.tagArea with
  | none => none
  | some l =>
    if i.content = .recorded ∧ 1 ≤ i.tagArea ∧ i.tagArea ≤ Config.maxTag ∧ l.medium = .cartridge ∧
        (l.state = .written ∨ l.state = .mailed ∨ l.state = .overdue ∨ l.state = .returning) ∧
        l.serial = some i.serial then
      some (i.tagArea, l)
    else none

/-- The classification of a newly seated cartridge, its identity recorded in the bay (R95). -/
def State.classify (b : BayNo) (i : Identity) (s : State) : State :=
  if (s.bay b).clamped < Config.minCapacity then s.rejectBay b .unsuited
  else
    match s.namedLoan i with
    | some (tag, l) =>
      if l.state = .written then
        (s.setBay b { s.bay b with state := .written, tag := some tag }).saveLoan tag { l with bay := some b }
      else (s.closeIdentified tag l).startErase b
    | none =>
      if i.content = .recorded then s.startErase b
      else if s.wearLimit ≤ i.wear then s.rejectBay b .worn
      else s.becomeBlank b

/-- The identity recorded, with C and U (R94). -/
def State.recordIdentity (b : BayNo) (i : Identity) (s : State) : State :=
  let c := clampedCapacity i.capacity
  s.setBay b { s.bay b with identity := some i, clamped := c, usable := usableCapacity c }

/-- The Bay Controller's command on a bay's line has ended with ready rising. -/
def State.endBayCommand (b : BayNo) (s : State) : State :=
  s.setBay b { s.bay b with command := none, ready := true }

def takeIdentityRecordReceived (b : BayNo) (record : List Byte) (s : State) : State :=
  match (s.bay b).state, (s.bay b).command with
  | .identifying, some (.readIdentity, _) =>
    let t := s.endBayCommand b
    match parseIdentity record with
    | none => t.rejectBay b .unsuited
    | some i => ((t.recordIdentity b i).classify b i).handOver
  | _, _ => s

def takeIdentifyStallExpiry (b : BayNo) (s : State) : State :=
  match (s.bay b).state, (s.bay b).command with
  | .identifying, some (.readIdentity, limit) => (s.expire limit).rejectBay b .unsuited
  | _, _ => s

/-! ### Erase (R97, R98) -/

def takeEraseReadyRise (b : BayNo) (s : State) : State :=
  match (s.bay b).state, (s.bay b).command with
  | .erasing, some (.erase, _) =>
    s.setBay b { s.bay b with command := some (.reread, s.now + s.bayStallTime), ready := false }
  | _, _ => s

def takeEraseTimeLimitExpiry (b : BayNo) (s : State) : State :=
  match (s.bay b).state, (s.bay b).command with
  | .erasing, some (.erase, limit) => (s.expire limit).rejectBay b .eraseFault
  | _, _ => s

/-- The identity after a re-read: wear, content and tag area replaced (R98). -/
def Identity.reread (old new : Identity) : Identity :=
  { old with wear := new.wear, content := new.content, tagArea := new.tagArea }

/-- The classification of a re-read (R98). -/
def State.classifyReread (b : BayNo) (new : Identity) (s : State) : State :=
  let x := s.bay b
  let t := s.setBay b { x with identity := x.identity.map (fun old => old.reread new) }
  if new.content ≠ .blank ∨ new.tagArea ≠ 0 then t.rejectBay b .eraseFault
  else if s.wearLimit ≤ new.wear then t.rejectBay b .worn
  else t.becomeBlank b

def takeEraseRereadReceived (b : BayNo) (record : List Byte) (s : State) : State :=
  match (s.bay b).state, (s.bay b).command with
  | .erasing, some (.reread, _) =>
    let t := s.endBayCommand b
    match parseIdentity record with
    | none => t.rejectBay b .eraseFault
    | some i => (t.classifyReread b i).handOver
  | _, _ => s

def takeEraseRereadStallExpiry (b : BayNo) (s : State) : State :=
  match (s.bay b).state, (s.bay b).command with
  | .erasing, some (.reread, limit) => (s.expire limit).rejectBay b .eraseFault
  | _, _ => s

/-! ### The re-home limit (R101) -/

def takeRehomeTimerExpiry (tag : Nat) (s : State) : State :=
  match (s.job tag).bind Job.rehome with
  | none => s
  | some limit =>
    (s.expire limit).failLoan tag .rehome (match s.loan tag with
      | some l => l.firstTitle
      | none => 0)

/-! ### Removal (R104, R105) -/

/-- BAY PULLED (R107). -/
def State.notifyPulled (b : BayNo) (tag : Nat) (was : BayState) (s : State) : State :=
  s.notify .fp (note .bayPulled b.val [tag, was.number])

/-- A loan loses its bay: PLANNED, its bay field absent, its job without a bay (R45, R104, R105). -/
def State.loseBay (tag : Nat) (s : State) : State :=
  match s.loan tag with
  | none => s
  | some l => (s.saveLoan tag { l with state := .planned, bay := none }).updateJob tag (fun j => { j with bay := none })

/-- The removal from a WRITTEN bay: a WRITTEN loan that names the bay loses its bay field (R47, R104). -/
def State.leaveWritten (b : BayNo) (tag : Nat) (s : State) : State :=
  match s.loan tag with
  | none => s
  | some l => if l.state = .written ∧ l.bay = some b then s.saveLoan tag { l with bay := none } else s

/-- The removal from a bay that a copy is using (R105). -/
def State.pullCopying (b : BayNo) (tag : Nat) (was : BayState) (s : State) : State :=
  let t := (s.loseBay tag).notifyPulled b tag was
  match (s.job tag).bind Job.holder with
  | some c => t.tellStop c .removal
  | none => t

/-- A removal taken: what the cartridge has sent and no block has taken is discarded, the bay is EMPTY, its switch as it
stands, and what the state it was in follows (R93, R104). -/
def takeBayPresenceOff (b : BayNo) (s : State) : State :=
  let x := s.bay b
  let t := (s.voidHeld b).setBay b { Bay.vacant with presence := x.presence }
  match x.state, x.tag with
  | .written, some tag => t.leaveWritten b tag
  | .reserved, some tag => (((t.loseBay tag).notifyPulled b tag .reserved).seekBay tag).handOver
  | .writing, some tag => (t.pullCopying b tag .writing).handOver
  | .verifying, some tag => (t.pullCopying b tag .verifying).handOver
  | .tagging, some tag => (t.pullCopying b tag .tagging).handOver
  | _, _ => t

/-! ### EJECT BAY (R106) -/

/-- The latch drive pulsed to its eject position (R106). -/
def State.pulse (b : BayNo) (s : State) : State :=
  let x := s.bay b
  s.setBay b
    { x with
      ejectPulse := some (s.now + Config.ejectPulseTime)
      releasePending := x.releasePending || x.state == .blank }

def applyEjectBay (b : BayNo) (s : State) : State :=
  let refused (why : Reason) (values : List Nat) : State := s.refuse .fp .ejectBay b.val why values
  match (s.bay b).state with
  | .blank => (s.pulse b).endPosted .fp
  | .written => (s.pulse b).endPosted .fp
  | .rejected => (s.pulse b).endPosted .fp
  | .reserved => refused .reserved [orZero (s.bay b).tag]
  | .identifying => refused .busy []
  | .writing => refused .busy []
  | .verifying => refused .busy []
  | .tagging => refused .busy []
  | .erasing => refused .busy []
  | .empty => refused .wrongState []

def takeLatchEjectPulseEnd (b : BayNo) (s : State) : State :=
  match (s.bay b).ejectPulse with
  | none => s
  | some limit => (s.expire limit).setBay b { s.bay b with ejectPulse := none }

/-! ### The lamp chain (R91) -/

def takeLampChainSendEnd (s : State) : State :=
  match s.lamp.sending with
  | none => s
  | some _ =>
    { s with
      lamp := if s.lamp.again then { sending := some (lampWord s.bays), again := false }
        else { sending := none, again := false } }

/-! ### A rise of ready that ends no command (R116) -/

/-- The channel waiting for ready to rise on a bay's line, with the command due and its limit. -/
def State.waitingChannel (s : State) (b : BayNo) : Option (Chan × CartCommand × Nat) :=
  let at_ (c : Chan) : Option (Chan × CartCommand × Nat) :=
    match (s.chan c).activity with
    | .commandDue cmd limit => if (s.chan c).bay = some b then some (c, cmd, limit) else none
    | _ => none
  (at_ .a).orElse fun _ => at_ .b

/-- Is a command of the bay, or of a channel on the bay, in progress on its line? -/
def State.lineBusy (s : State) (b : BayNo) : Bool :=
  let sentBy (c : Chan) : Bool :=
    match (s.chan c).activity with
    | .commandSent _ _ => (s.chan c).bay == some b
    | _ => false
  (s.bay b).command.isSome || sentBy .a || sentBy .b

def takeCartridgeReadyRise (b : BayNo) (s : State) : State :=
  if s.lineBusy b then s
  else
    match s.waitingChannel b with
    | some (c, cmd, limit) =>
      (s.setBay b { s.bay b with ready := false }).setChan c { s.chan c with activity := .commandSent cmd limit }
    | none => s.setBay b { s.bay b with ready := true }

end Sys2Proof.Machine
end

