-- ==== Sys2Proof/Machine/Channels.lean ====
section
/-! DEFINITION. The Copy Queue and the Copy Channels (06): the channels' steps at the ends of their store reads and
cartridge commands, write faults, retries, given-up bays and block boundaries. -/

namespace Sys2Proof.Machine

/-! ### The end of a command (R116, R126) -/

/-- Ready has risen on a channel's cartridge line: its command is done. -/
def State.readyRises (c : Chan) (s : State) : State :=
  let x := s.chan c
  let t := s.setChan c { x with activity := .none }
  match x.bay with
  | some b => t.setBay b { t.bay b with ready := true }
  | none => t

/-- The block boundary of a stopping channel; any other channel goes on (R126). The copy queue then decides what the
IDLE channels take (R109). -/
def State.boundaryOr (c : Chan) (go : State → State) (s : State) : State :=
  State.handOver (if (s.chan c).stopping then s.release c else go s)

/-- The bay of a channel's job shows a copy state (R102). -/
def State.showCopy (c : Chan) (st : BayState) (s : State) : State :=
  match (s.chan c).bay with
  | some b => s.setBay b { s.bay b with state := st }
  | none => s

/-! ### Faults and retries (R123 to R125) -/

/-- A bay is given up (R125). -/
def State.giveUp (c : Chan) (s : State) : State :=
  let x := s.chan c
  let t := match x.bay with
    | some b => s.rejectBay b .writeFault
    | none => s
  let t := match x.tag with
    | some tag => t.loseBay tag
    | none => t
  t.release c

/-- A cartridge write fault (R123, R124). -/
def State.writeFault (c : Chan) (s : State) : State :=
  let x := s.chan c
  if x.attempts < s.copyRetryLimit then
    ((s.setChan c { x with state := .retryErase, activity := .none }).showCopy c .writing).dueCommand c .erase
      s.eraseTimeLimit
  else s.giveUp c

def takeCartridgeStallExpiry (c : Chan) (s : State) : State :=
  match (s.chan c).activity.command with
  | some (.erase, _) => s
  | some (_, limit) => (s.expire limit).boundaryOr c (fun t => t.writeFault c)
  | none => s

def takeRetryEraseLimitExpiry (c : Chan) (s : State) : State :=
  match (s.chan c).state, (s.chan c).activity.command with
  | .retryErase, some (.erase, limit) => (s.expire limit).boundaryOr c (fun t => t.giveUp c)
  | _, _ => s

/-- The job restarts from its first title (R124). -/
def State.restart (c : Chan) (s : State) : State :=
  let x := s.chan c
  let t := s.setChan c { x with attempts := x.attempts + 1, index := 1 }
  let t := match x.tag with
    | some tag => t.updateJob tag (fun j => { j with attempts := j.attempts + 1 })
    | none => t
  t.titleStart c

def takeRetryEraseEnd (c : Chan) (s : State) : State :=
  match (s.chan c).state, (s.chan c).activity with
  | .retryErase, .commandSent .erase _ => (s.readyRises c).boundaryOr c (fun t => t.restart c)
  | _, _ => s

/-! ### The copy of a title (R113, R115, R117, R118) -/

/-- The set in use (R112). -/
def Channel.setInUse (x : Channel) : RunSet := if x.second then x.set2 else x.set1

/-- Has the set in use passed its end with no set to take over: the end of the image (R113)? -/
def Channel.imageEnded (x : Channel) : Bool := decide (x.setInUse.last < x.setInUse.now)

/-- The set in use advances; set 2 takes over from a spent set 1 (R113). -/
def Channel.advanceSet (x : Channel) : Channel :=
  if x.second then { x with set2 := { x.set2 with now := x.set2.now + 1 } }
  else
    { x with
      set1 := { x.set1 with now := x.set1.now + 1 }
      second := decide (x.set1.last < x.set1.now + 1) && decide (0 < x.set2.count) }

/-- The request for the store block at the now of the set in use (R117 step 1). -/
def State.requestBlock (c : Chan) (s : State) : State :=
  (s.setChan c { s.chan c with activity := .storeRequest }).arbitrate

def takeHeaderWriteEnd (c : Chan) (s : State) : State :=
  match (s.chan c).state, (s.chan c).activity with
  | .header, .commandSent (.writeBlock _ _) _ =>
    (s.readyRises c).boundaryOr c fun t =>
      (t.setChan c { t.chan c with state := .image, block := (t.chan c).block + 1 }).requestBlock c
  | _, _ => s

/-- The block read is summed, the set advances and WRITE BLOCK comes due (R117 steps 3 and 4). -/
def State.copyBlock (c : Chan) (bytes : List Byte) (s : State) : State :=
  let x := s.chan c
  let t := s.setChan c { x.advanceSet with sum := x.sum.addBytes bytes, activity := .none }
  t.dueStalled c (.writeBlock x.block bytes)

def takeChannelStoreReadComplete (c : Chan) (damaged : Option (List Byte)) (s : State) : State :=
  match (s.chan c).activity with
  | .storeRead _ =>
    let bytes := damaged.getD (readStore s.store (s.chan c).setInUse.now)
    (s.endTransferOf (Chan.requester c)).boundaryOr c (fun t => t.copyBlock c bytes)
  | _ => s

/-- The index region's blocks: the index in block 0, zero bytes in blocks 1 to 15 (R119). -/
def State.indexRegionBlock (s : State) (c : Chan) (block : Nat) : List Byte :=
  let x := s.chan c
  if block = 0 then
    let total := match x.tag.bind s.loan with
      | some l => l.planTotal
      | none => 0
    indexBlock (orZero x.tag) total (x.titles.filterMap (fun e => (s.cart e.title).map (fun k => (e, k))))
  else List.replicate Config.blockBytes 0

/-- The write of an index block (R119). -/
def State.writeIndexBlock (c : Chan) (block : Nat) (s : State) : State :=
  let t := s.setChan c { s.chan c with block := block }
  t.dueStalled c (.writeBlock block (t.indexRegionBlock c block))

/-- A title is done: the next one starts, or INDEX begins after the last (R118). -/
def State.titleDone (c : Chan) (s : State) : State :=
  let x := s.chan c
  if x.index < x.titles.length then (s.setChan c { x with index := x.index + 1 }).titleStart c
  else (s.setChan c { x with state := .index, index := 0 }).writeIndexBlock c 0

/-- The comparison at the end of the image (R118). -/
def State.compareStoreSum (c : Chan) (s : State) : State :=
  let x := s.chan c
  match x.tag, x.entry with
  | some tag, some e =>
    if (s.cart e.title).map CartTitle.declared = some x.sum then s.titleDone c
    else (s.damageReport e.title x.sum).channelFails c tag .sum e.title
  | _, _ => s

def takeImageBlockWriteEnd (c : Chan) (s : State) : State :=
  match (s.chan c).state, (s.chan c).activity with
  | .image, .commandSent (.writeBlock _ _) _ =>
    (s.readyRises c).boundaryOr c fun t =>
      let t := t.setChan c { t.chan c with block := (t.chan c).block + 1 }
      if (t.chan c).imageEnded then t.compareStoreSum c else t.requestBlock c
  | _, _ => s

/-! ### Index, verify, tag and drain (R119 to R122) -/

/-- The read-back of the title at an index begins (R120). -/
def State.verifyTitle (c : Chan) (index : Nat) (s : State) : State :=
  let x := { s.chan c with state := .verify, index := index, sum := .zero }
  match x.entry with
  | some e => (s.setChan c { x with block := e.offset + 1 }).dueStalled c (.readBlock (e.offset + 1))
  | none => s

def takeIndexBlockWriteEnd (c : Chan) (s : State) : State :=
  match (s.chan c).state, (s.chan c).activity with
  | .index, .commandSent (.writeBlock _ _) _ =>
    (s.readyRises c).boundaryOr c fun t =>
      let block := (t.chan c).block
      if block + 1 < Config.indexBlocks then t.writeIndexBlock c (block + 1)
      else (t.showCopy c .verifying).verifyTitle c 1
  | _, _ => s

/-- The comparison at the end of a title's read-back (R120). In TAGGING, and in DRAINING after it, the cartridge block
stays one past the last block read back, since no next block is written or read there (R129): DESIGN CHOICE, unsafe,
log entry 53. -/
def State.compareReadBack (c : Chan) (e : PlanEntry) (s : State) : State :=
  let x := s.chan c
  if (s.cart e.title).map CartTitle.declared = some x.sum then
    if x.index < x.titles.length then s.verifyTitle c (x.index + 1)
    else
      ((s.setChan c { x with state := .tagging, index := 0 }).showCopy c .tagging).dueStalled c
        (.writeTag (orZero x.tag))
  else s.writeFault c

def takeVerifyBlockReadEnd (c : Chan) (block : List Byte) (s : State) : State :=
  match (s.chan c).state, (s.chan c).activity with
  | .verify, .commandSent (.readBlock _) _ =>
    (s.readyRises c).boundaryOr c fun t =>
      let x := t.chan c
      let t := t.setChan c { x with sum := x.sum.addBytes block, block := x.block + 1 }
      match x.entry with
      | some e =>
        if x.block < e.offset + e.length then t.dueStalled c (.readBlock (x.block + 1)) else t.compareReadBack c e
      | none => t
  | _, _ => s

def takeWriteTagEnd (c : Chan) (s : State) : State :=
  match (s.chan c).state, (s.chan c).activity with
  | .tagging, .commandSent (.writeTag _) _ =>
    (s.readyRises c).boundaryOr c fun t =>
      (t.setChan c { t.chan c with state := .draining }).dueStalled c .drain
  | _, _ => s

/-- The loan becomes WRITTEN at the drain confirmation (R46, R122). -/
def State.written (tag : Nat) (l : Loan) (b : BayNo) (s : State) : State :=
  let serial := (s.bay b).identity.map Identity.serial
  let route := match s.reader l.patron with
    | some (_, p) => p.route.val
    | none => 0
  let t := s.saveLoan tag { l with state := .written, serial := serial }
  let t := (t.unpinAll l.titles).leaveQueue tag
  let t := t.setBay b { t.bay b with state := .written }
  t.notify .fp (note .cartridgeWritten tag [b.val, route, orZero serial])

/-- The report of the drain confirmation, void unless the loan is COPYING (R46, R122). -/
def State.reportDrain (c : Chan) (s : State) : State :=
  let x := s.chan c
  match x.tag, x.bay with
  | some tag, some b =>
    match s.loan tag with
    | some l => if l.state = .copying then s.written tag l b else s
    | none => s
  | _, _ => s

def takeDrainConfirmation (c : Chan) (s : State) : State :=
  match (s.chan c).state, (s.chan c).activity with
  | .draining, .commandSent .drain _ => (s.readyRises c).boundaryOr c (fun t => (t.reportDrain c).release c)
  | _, _ => s

end Sys2Proof.Machine
end

