-- ==== Sys2Proof/Machine/Line.lean ====
section
/-! DEFINITION. Mailing Line and Route Bins (07), with SET PARAMETER (R193): the station table, line jobs, the mailing
line's commands and answers, the route bins and their releases. -/

namespace Sys2Proof.Machine

/-! ### The station table (R133) -/

/-- Does the label station setting or the gate station setting of any route name a station (R133)? -/
def State.configured (s : State) (a : Nat) : Bool :=
  s.labelStation == a || (List.finRange 32).any (fun r => s.gateStation r == a)

/-- A station after a change of the settings that name it (R133). -/
def StationState.reconfigure (named : Bool) (x : StationState) : StationState :=
  if named then (if x = .unused then .online else x) else .unused

/-- The station addresses in the order of the table. -/
def stationAddress (i : Fin 30) : Nat := i.val + 1

/-- The station table after a SET PARAMETER (R133). -/
def State.updateStations (s : State) : State :=
  { s with
    stations := Vector.ofFn (fun i => StationState.reconfigure (s.configured (stationAddress i)) s.stations[i]) }

/-- The station table at records ready and after FORMAT RECORDS (R133). -/
def State.buildStations (s : State) : State :=
  { s with
    stations := Vector.ofFn (fun i => if s.configured (stationAddress i) then StationState.online else .unused) }

/-! ### Releases (R51, R146) -/

/-- A loan released on a day (R51). -/
def Loan.mail (today : Nat) (l : Loan) : Loan :=
  { l with state := .mailed, shipDay := some today, dueDay := some (min Config.maxDay (today + l.period)) }

/-- The loans of a list become MAILED; the changes for the unit (R51, R152). -/
def State.mailLoans (s : State) : List Nat → State × WriteUnit
  | [] => (s, [])
  | tag :: rest =>
    match s.loan tag with
    | none => s.mailLoans rest
    | some l =>
      let m := l.mail s.dayCount
      let (t, u) := (s.putLoan tag m).mailLoans rest
      (t, .loan tag (some m) :: u)

/-- A bin is released, the changes handed as one unit behind those its event made before (R146, R152). -/
def State.releaseBin (r : RouteNo) (earlier : WriteUnit) (s : State) : State :=
  let list := (s.bin r).list
  let (t, u) := s.mailLoans list
  let x : Bin := { state := .closed, list := [], closeTimer := none }
  let t := (t.setBin r x).hand (earlier ++ u ++ [.bin r x.kept])
  t.notifyBoth (note .bagReleased r.val [list.length, orZero list.head?, orZero list.getLast?])

/-- The close timer started at the full close timeout; 0 stands for no timer (R145). -/
def State.closeTimerStart (s : State) (r : RouteNo) : Option Nat :=
  if s.closeTimeout r = 0 then none else some (s.now + 1000 * s.closeTimeout r)

/-! ### The running of line jobs (R137) -/

/-- A command begins on the line for the head job, which enters a stage (R130). -/
def State.sendLine (stage : LineStage) (route : Option RouteNo) (c : LineCommand) (station : Nat) (data : List Byte)
    (s : State) : State :=
  { s with
    lineJobs := match s.lineJobs with
      | j :: rest => { j with stage := stage, route := route } :: rest
      | [] => []
    lineCmd :=
      some
        { command := c, station := station, chars := lineChars station c data, sent := 1, retries := none,
          phase := .sending } }

/-- The item count of a LABEL: the titles of a cartridge loan, the volumes per set of a volume loan (R131). -/
def State.itemCount (s : State) (l : Loan) : Nat :=
  match l.medium with
  | .cartridge => l.titles.length
  | .volume =>
    match s.title l.firstTitle with
    | some { body := .vol v, .. } => v.volumes
    | _ => 0

/-- The refusal of a line job's own step, under the request code of CONTAIN ITEM (R138, R173). -/
def State.refuseItem (tag : Nat) (why : Reason) (values : List Nat) (s : State) : State :=
  s.notifyRefused .fp .containItem tag why values

/-- Is a loan WRITTEN or PICKED, and so may be contained? -/
def LoanState.containable : LoanState → Bool
  | .written => true
  | .picked => true
  | .planned => false
  | .copying => false
  | .bagged => false
  | .mailed => false
  | .overdue => false
  | .returning => false

/-- The first check of a CONTAIN job (R139): its loan and route, or the refusal that ends it. -/
def State.firstCheck (s : State) (tag : Nat) : Except (Reason × List Nat) (Loan × RouteNo) :=
  match s.loan tag with
  | none => .error (.unknownLoan, [])
  | some l =>
    if l.state.containable then
      match s.reader l.patron with
      | none => .error (.unknownLoan, [])
      | some (_, p) =>
        if (s.bin p.route).state = .open then .ok (l, p.route)
        else .error (.binClosed, [p.route.val, (s.bin p.route).state.number])
    else .error (.wrongState, [])

/-- What a job does as the head of the queue: a state in which its command goes out, or one in which it has ended with
nothing sent (R135, R139, R140, R151). -/
def State.beginJob (j : LineJob) (s : State) : State × Bool :=
  match j.kind with
  | .home => (s.sendLine .quiet none .gatesHome Config.broadcast [], true)
  | .ping a => (s.sendLine .ping none .ping a [], true)
  | .contain tag =>
    match s.firstCheck tag with
    | .error (why, values) => (s.refuseItem tag why values, false)
    | .ok (l, r) =>
      if s.station s.labelStation = .offline then (s.refuseItem tag .stationOffline [s.labelStation], false)
      else
        (s.sendLine .label (some r) .label s.labelStation
          (labelData tag l.patron r l.medium (s.itemCount l) l.period), true)

/-- The head of the queue starts; jobs that end with nothing sent leave, and the next starts at once (R137). The first
argument bounds the starts by the jobs there are. -/
def runJobs : Nat → State → State
  | 0, s => s
  | n + 1, s =>
    match s.lineJobs with
    | [] => s
    | j :: _ =>
      if j.stage = .waiting ∧ s.lineCmd.isNone then
        match s.beginJob j with
        | (t, true) => t
        | (t, false) => runJobs n { t with lineJobs := t.lineJobs.tail }
      else s

def State.startJobs (s : State) : State := runJobs s.lineJobs.length s

/-- The running job ends, and the next starts at once (R137). -/
def State.endJob (s : State) : State :=
  State.startJobs { s with lineJobs := s.lineJobs.tail, lineCmd := none }

/-- A job joins the queue, and starts at once if it is alone (R137). -/
def State.appendJob (k : LineJobKind) (s : State) : State :=
  State.startJobs { s with lineJobs := s.lineJobs ++ [LineJob.mk k none .waiting] }

/-! ### CONTAIN ITEM and PING STATION (R135, R138) -/

def applyContainItem (tag : Nat) (s : State) : State :=
  match s.loan tag with
  | none => s.refuse .fp .containItem tag .unknownLoan []
  | some l =>
    if !l.state.containable then s.refuse .fp .containItem tag .wrongState [l.state.number]
    else if s.lineJobs.any (fun j => j.kind == .contain tag) then s.refuse .fp .containItem tag .duplicate []
    else if Config.maxLineJobs ≤ s.lineJobs.length then s.refuse .fp .containItem tag .lineBusy []
    else (s.endPosted .fp).appendJob (.contain tag)

def applyPingStation (a : Nat) (s : State) : State :=
  if Config.maxLineJobs ≤ s.lineJobs.length then s.refuse .fp .pingStation a .lineBusy []
  else (s.endPosted .fp).appendJob (.ping a)

/-! ### The ends of commands (R132) -/

def takeLineCommandEnd (s : State) : State :=
  match s.lineCmd with
  | none => s
  | some c =>
    match c.phase with
    | .sending =>
      let limit := s.now + s.answerTime
      let c' :=
        if c.command = .gatesHome then { c with phase := .quiet limit }
        else { c with phase := .awaiting limit, retries := some (c.retries.getD s.lineRetries) }
      { s with lineCmd := some c' }
    | .awaiting _ => s
    | .quiet _ => s

/-- The command awaiting its answer, with its limit. -/
def State.awaited (s : State) : Option (LineSend × Nat) :=
  match s.lineCmd with
  | some c =>
    match c.phase with
    | .awaiting limit => some (c, limit)
    | .sending => none
    | .quiet _ => none
  | none => none

/-- The answer taken of the command awaited, if it is this command, the answer has come within the answer time, and the
characters are well formed (R132, R197). -/
def State.answerTo (s : State) (which : LineCommand) (chars : List LineChar) : Option (LineSend × LineAnswer) :=
  match s.awaited with
  | some (c, limit) =>
    if c.command = which ∧ s.now ≤ limit then (parseAnswer c.station chars).map (fun a => (c, a)) else none
  | none => none

/-- The CONTAIN job running: its tag and route. -/
def State.runningItem (s : State) : Option (Nat × Option RouteNo) :=
  match s.lineJobs with
  | { kind := .contain tag, route := r, .. } :: _ => some (tag, r)
  | _ => none

/-- A NAK to LABEL or GATE (R140, R142), for a loan that is gone as well, be it by a FORMAT RECORDS (R151; DEDUCED, log
entry 42). -/
def State.refuseNak (tag : Nat) (c : LineSend) (reason : Nat) (s : State) : State :=
  (s.refuseItem tag .labelFault [c.command.number, c.station, reason]).endJob

/-! ### The second check and the gate (R141, R142) -/

/-- The second check of a CONTAIN job (R141): `none` where the job goes on, else the reason it ends for. The loan is looked
up by its tag, so a loan planned under the same tag since a FORMAT RECORDS is the one checked, where R151 by itself gives
UNKNOWN_LOAN (DEDUCED, unsafe, log entry 56). -/
def State.secondCheck (s : State) (tag : Nat) (r : RouteNo) : Option Reason :=
  match s.loan tag with
  | none => some .unknownLoan
  | some l =>
    if !l.state.containable then some .wrongState
    else if (s.bin r).state ≠ .open then some .binClosed
    else if s.station (s.gateStation r) = .offline then some .stationOffline
    else none

def takeLabelAnswer (chars : List LineChar) (s : State) : State :=
  match s.answerTo .label chars, s.runningItem with
  | some (_, .ack), some (tag, some r) =>
    match s.secondCheck tag r with
    | some why => (s.refuseItem tag why []).endJob
    | none => s.sendLine .gate (some r) .gate (s.gateStation r) (bytesOfNat 1 (s.gateOutput r))
  | some (c, .nak reason), some (tag, some _) => s.refuseNak tag c reason
  | _, _ => s

/-- A loan gated into a bin (R50). -/
def Loan.bag (r : RouteNo) (l : Loan) : Loan := { l with state := .bagged, route := some r, bay := none }

/-- The gate acknowledged for a loan and an OPEN bin: the loan BAGGED and appended, and the bin released at its trigger
level (R50, R142, R145, R146, R152). -/
def State.gated (tag : Nat) (l : Loan) (r : RouteNo) (s : State) : State :=
  let l' := l.bag r
  let list := (s.bin r).list ++ [tag]
  let x := { s.bin r with list := list, closeTimer := s.closeTimerStart r }
  let t := (s.putLoan tag l').setBin r x
  let u : WriteUnit := [.loan tag (some l'), .bin r x.kept]
  if s.triggerLevel r ≤ list.length then t.releaseBin r u else t.hand u

/-- The answer to GATE (R142). An ACK is taken by the table's rows: with the bin not OPEN the job ends BIN_CLOSED, its loan
held or not, so also after a FORMAT RECORDS and a ROUTE OFF, where R151 by itself gives UNKNOWN_LOAN (DEDUCED, log entry
42). The loan is the one that holds the tag now, also where it was planned since a FORMAT RECORDS (DEDUCED, log entry
56). -/
def takeGateAnswer (chars : List LineChar) (s : State) : State :=
  match s.answerTo .gate chars, s.runningItem with
  | some (_, .ack), some (tag, some r) =>
    if (s.bin r).state = .open then
      match s.loan tag with
      | none => (s.refuseItem tag .unknownLoan []).endJob
      | some l =>
        if l.state.containable then (s.gated tag l r).endJob else (s.refuseItem tag .wrongState []).endJob
    else (s.refuseItem tag .binClosed []).endJob
  | some (c, .nak reason), some (tag, some _) => s.refuseNak tag c reason
  | _, _ => s

/-! ### PING, silence and quiet (R132, R134, R135, R151) -/

/-- A station that has answered a PING: ONLINE if it is configured (R135). -/
def State.answered (a : Nat) (s : State) : State :=
  if s.station a = .unused then s else s.setStation a .online

def takePingAnswer (chars : List LineChar) (s : State) : State :=
  match s.answerTo .ping chars with
  | some (c, _) => (s.answered c.station).endJob
  | none => s

/-- The station of a command given up goes OFFLINE, with STATION OFFLINE if it was ONLINE (R134). -/
def State.goOffline (c : LineSend) (s : State) : State :=
  if s.station c.station = .online then
    (s.setStation c.station .offline).notify .fp (note .stationOffline c.station [c.command.number, c.sent])
  else s

/-- The refusal of the job whose command was given up (R134, R135, R140, R142). -/
def State.refuseSilent (c : LineSend) (s : State) : State :=
  match s.lineJobs with
  | { kind := .contain tag, .. } :: _ =>
    s.refuseItem tag .stationOffline (if c.command = .label then [c.station] else [])
  | { kind := .ping a, .. } :: _ => s.notifyRefused .fp .pingStation a .stationOffline []
  | { kind := .home, .. } :: _ => s
  | [] => s

def takeAnswerTimeExpiry (s : State) : State :=
  match s.awaited with
  | none => s
  | some (c, limit) =>
    let t := s.expire limit
    if c.sent ≤ c.retries.getD 0 then { t with lineCmd := some { c with sent := c.sent + 1, phase := .sending } }
    else ((t.goOffline c).refuseSilent c).endJob

/-- An answer that is not well formed, or not from the station commanded, is discarded (R132, R197). The command goes on
waiting, and a well-formed answer that comes within the answer time still ends it (DEDUCED, unsafe, log entry 57). -/
def takeLineAnswerDiscarded (_chars : List LineChar) (s : State) : State := s

def takeBroadcastQuietEnd (s : State) : State :=
  match s.lineCmd with
  | none => s
  | some c =>
    match c.phase with
    | .quiet limit => (s.expire limit).endJob
    | .sending => s
    | .awaiting _ => s

/-! ### Route bins (R145, R148, R149) -/

def takeCloseTimerExpiry (r : RouteNo) (s : State) : State :=
  match (s.bin r).closeTimer with
  | none => s
  | some limit => (s.expire limit).releaseBin r []

def applyBagReplaced (r : RouteNo) (s : State) : State :=
  match (s.bin r).state with
  | .closed => (s.saveBin r .fresh).endPosted .fp
  | .open => s.refuse .fp .bagReplaced r.val .wrongState [(s.bin r).state.number]
  | .off => s.refuse .fp .bagReplaced r.val .wrongState [(s.bin r).state.number]

def applyRouteOff (r : RouteNo) (s : State) : State :=
  let x := s.bin r
  if !x.list.isEmpty then s.refuse .fp .routeOff r.val .notEmpty [x.list.length]
  else if x.state = .off then s.refuse .fp .routeOff r.val .wrongState []
  else (s.saveBin r { state := .off, list := [], closeTimer := none }).endPosted .fp

def applyRouteOn (r : RouteNo) (s : State) : State :=
  match (s.bin r).state with
  | .off => (s.saveBin r .fresh).endPosted .fp
  | .open => s.refuse .fp .routeOn r.val .wrongState []
  | .closed => s.refuse .fp .routeOn r.val .wrongState []

/-! ### SET PARAMETER (R145, R147, R193) -/

/-- The route of a route parameter (section 10.4). -/
def paramRoute (n : Nat) : RouteNo := Fin.ofNat 32 ((n - 128) / 4)

/-- The close timer of a bin after its close timeout has been set (R145). -/
def State.retimeBin (r : RouteNo) (s : State) : State :=
  let x := s.bin r
  if x.state = .open ∧ x.list ≠ [] then s.setBin r { x with closeTimer := s.closeTimerStart r } else s

/-- The trigger level of a bin has been set: an OPEN bin that holds it is released, in one unit with the setting
(R147). -/
def State.retrigger (r : RouteNo) (u : WriteUnit) (s : State) : State :=
  let x := s.bin r
  if x.state = .open ∧ s.triggerLevel r ≤ x.list.length then s.releaseBin r u else s.hand u

/-- What a changed setting brings in another block's records, with its unit (R193). -/
def State.settingChanged (n : Nat) (u : WriteUnit) (s : State) : State :=
  if n = 44 then (s.hand u).updateStations
  else if n < 128 then s.hand u
  else if n % 4 = 0 then (s.hand u).updateStations
  else if n % 4 = 2 then s.retrigger (paramRoute n) u
  else if n % 4 = 3 then (s.hand u).retimeBin (paramRoute n)
  else s.hand u

def applySetParameter (p : Port) (n v : Nat) (s : State) : State :=
  match paramOf n with
  | none => s.endPosted p
  | some row =>
    let v := row.clamp v
    let u : WriteUnit := [.setting n v]
    if v = s.setting n then (s.hand u).endPosted p
    else (State.settingChanged n u { s with settings := writeSetting n v s.settings }).endPosted p

end Sys2Proof.Machine
end

