-- ==== Sys2Proof/Machine/Selection.lean ====
section
/-! DEFINITION. Selection and the Cartridge Fill Plan (04): footprints and the fill walk, the loan period, the choice and
the planning of a shipment, the visits of a pass and its end. -/

namespace Sys2Proof.Machine

/-! ### Cartridge space and period (R77 to R80) -/

/-- The footprint of a CARTRIDGE title of a length (R77). -/
def footprint (length : Nat) : Nat := 8 * ((length + 1 + 7) / 8)

/-- The plan total of a cartridge shipment (R79). -/
def planTotal (es : List PlanEntry) : Nat :=
  Config.indexBlocks + (es.map (fun e => footprint e.length)).sum

/-- The period of a loan of `n` titles (R80). -/
def State.loanPeriod (s : State) (n : Nat) : Nat :=
  min s.periodCap (s.basePeriod + s.periodStep * (n - 1))

/-- The image length of a RESIDENT CARTRIDGE title that is not withdrawing; none for any other (R71, R78). -/
def State.sendable (s : State) (n : Nat) : Option Nat :=
  match s.title n with
  | some { withdrawing := false, body := .cart c } => if c.state = .resident then some c.length else none
  | _ => none

/-- The fill walk over the entries after the first title, with what remains, the titles planned, the skips and the next
offset (R78). -/
def State.fillWalk (s : State) : List Nat → (left n skips offset : Nat) → List PlanEntry
  | [], _, _, _, _ => []
  | w :: rest, left, n, skips, offset =>
    if s.maxPlanTitles ≤ n then []
    else
      match s.sendable w with
      | none => s.fillWalk rest left n skips offset
      | some length =>
        let f := footprint length
        if f ≤ left then
          { title := w, offset := offset, length := length } :: s.fillWalk rest (left - f) (n + 1) skips (offset + f)
        else if s.skipLimit ≤ skips + 1 then []
        else s.fillWalk rest left n (skips + 1) offset

/-! ### The choice of shipment (R71 to R74) -/

/-- What a visit chooses. -/
inductive Shipment
  | volume (title : Nat) (v : VolTitle)
  | cartridge (bay : BayNo) (plan : List PlanEntry)
  deriving DecidableEq, Repr

/-- The cartridge shipment that begins with a title, if the queue and the pool allow one (R71, R73, R74). -/
def State.cartridgeShipment (s : State) (n length : Nat) (rest : List Nat) : Option Shipment :=
  if Config.maxJobs ≤ s.copyQueue.length then none
  else
    (s.firstFit (footprint length)).map fun b =>
      .cartridge b
        ({ title := n, offset := Config.indexBlocks, length := length } ::
          s.fillWalk rest ((s.bay b).usable - footprint length) 1 0 (Config.indexBlocks + footprint length))

/-- The walk of the want list (R71). -/
def State.chooseShipment (s : State) : List Nat → Option Shipment
  | [] => none
  | n :: rest =>
    match s.title n with
    | some { withdrawing := false, body := .vol v } =>
      if 0 < v.onShelf then some (.volume n v) else s.chooseShipment rest
    | some { withdrawing := false, body := .cart c } =>
      if c.state = .resident then
        match s.cartridgeShipment n c.length rest with
        | some x => some x
        | none => s.chooseShipment rest
      else s.chooseShipment rest
    | _ => s.chooseShipment rest

/-- Is a reader eligible (R69)? -/
def Patron.eligible (p : Patron) : Bool :=
  !p.hold && decide (p.loansOut < p.allowance) && !p.wants.isEmpty

/-! ### The planning (R42, R82, R83) -/

/-- The tag after a tag (R42). -/
def tagAfter (tag : Nat) : Nat := if tag < Config.maxTag then tag + 1 else 1

/-- The first tag from `tag` on that no record holds; the first argument bounds the tries (R42). -/
def freeTag (loans : Table Loan) : Nat → Nat → Nat
  | 0, tag => tag
  | k + 1, tag => if (Table.find tag loans).isSome then freeTag loans k (tagAfter tag) else tag

/-- The tag the next planned loan receives (R42). -/
def State.newTag (s : State) : Nat := freeTag s.loans (s.loans.length + 1) s.nextTag

/-- A reader for whom titles have been planned (R31). -/
def Patron.planned (p : Patron) (titles : List Nat) : Patron :=
  { p with wants := p.wants.filter (fun x => !titles.contains x), loansOut := p.loansOut + 1 }

/-- The kept form of a title that a visit pinned, for its unit (R88). -/
def State.titleChange (s : State) (n : Nat) : WriteUnit :=
  match s.title n with
  | some t => [.title n (some t.kept)]
  | none => []

/-- What both kinds of planning do: the loan under its tag, the reader's record, the unit and the cursor (R43, R82, R83,
R85, R88). -/
def State.planLoan (slot : Nat) (p : Patron) (l : Loan) (u : WriteUnit) (s : State) : State :=
  let tag := s.newTag
  let p' := p.planned (l.titles.map PlanEntry.title)
  let t := (s.putLoan tag l).putPatron slot p'
  let t :=
    { t with
      nextTag := tagAfter tag
      engine := { t.engine with cursor := slot, shipments := t.engine.shipments + 1 } }
  t.hand ([.loan tag (some l), .nextTag (tagAfter tag), .patron slot (some p'.kept)] ++ u)

/-- The loan record of a shipment (R43). -/
def State.newLoan (s : State) (patron : Nat) (m : LoanMedium) (titles : List PlanEntry) (total : Nat)
    (bay : Option BayNo) : Loan :=
  { patron := patron, medium := m, state := .planned, titles := titles, planTotal := total, bay := bay, serial := none,
    period := s.loanPeriod titles.length, planDay := s.dayCount, shipDay := none, dueDay := none, route := none }

/-- SHIPMENT PLANNED (R84). -/
def State.notifyPlanned (tag patron : Nat) (m : LoanMedium) (first count : Nat) (s : State) : State :=
  s.notify .cp (note .shipmentPlanned tag [patron, m.number, first, count])

def State.planCartridge (slot : Nat) (p : Patron) (b : BayNo) (plan : List PlanEntry) (s : State) : State :=
  let tag := s.newTag
  let l := s.newLoan p.number .cartridge plan (planTotal plan) (some b)
  let t := plan.foldl (fun t e => t.pin e.title) s
  let t := t.planLoan slot p l (plan.flatMap (fun e => t.titleChange e.title))
  let t := t.setBay b { t.bay b with state := .reserved, tag := some tag }
  let t := { t with copyQueue := t.copyQueue ++ [Job.mk tag (some b) 0 none none] }
  t.notifyPlanned tag p.number .cartridge l.firstTitle plan.length

def State.planVolume (slot : Nat) (p : Patron) (title : Nat) (v : VolTitle) (s : State) : State :=
  let tag := s.newTag
  let l := s.newLoan p.number .volume [{ title := title, offset := 0, length := 0 }] 0 none
  let (t, u) := s.changeCopies title (fun v => { v with onShelf := v.onShelf - 1 })
  let t := t.planLoan slot p l u
  let t := t.notify .fp (note .pick tag [title, v.location, v.volumes])
  t.notifyPlanned tag p.number .volume title 1

/-- The test of a reader and the shipment planned for that reader, if any (R68, R69). -/
def State.visitReader (slot : Nat) (p : Patron) (s : State) : State :=
  if p.eligible then
    match s.chooseShipment p.wants with
    | some (.volume n v) => s.planVolume slot p n v
    | some (.cartridge b plan) => s.planCartridge slot p b plan
    | none => s
  else s

/-! ### Passes (R67, R68, R70, R86) -/

/-- The next occupied position of the pass (R67, log entry 12). -/
def State.nextReader (s : State) : Option (Nat × Patron) :=
  match s.engine.next with
  | none => none
  | some n =>
    if n < s.engine.start then s.patrons.find? (fun e => decide (n ≤ e.1) && decide (e.1 < s.engine.start))
    else
      match s.patrons.find? (fun e => decide (n ≤ e.1)) with
      | some e => some e
      | none => s.patrons.find? (fun e => decide (e.1 < s.engine.start))

/-- The end of a pass (R70). -/
def Engine.endPass (g : Engine) : Engine :=
  if g.again || (!g.endedFull && decide (0 < g.shipments)) then g.startPass else { Engine.idle with cursor := g.cursor }

/-- The next slot advances past a slot visited; the pass ends after its last position (R68, R70). -/
def Engine.advance (slot : Nat) (g : Engine) : Engine :=
  if slotAfter slot = g.start then Engine.endPass { g with next := none } else { g with next := some (slotAfter slot) }

def takeSelectionVisit (s : State) : State :=
  if s.engine.passing then
    match s.nextReader with
    | none => { s with engine := s.engine.endPass }
    | some (slot, p) =>
      if Config.maxLoans ≤ s.loans.length then
        { s with engine := Engine.endPass { s.engine with endedFull := true } }
      else
        let t := s.visitReader slot p
        State.handOver { t with engine := t.engine.advance slot }
  else s

/-- SELECT NOW (R66). -/
def applySelectNow (s : State) : State := s.trigger.endPosted .cp

end Sys2Proof.Machine
end

