-- ==== Sys2Proof/Machine/Records.lean ====
section
/-! DEFINITION. Record Memory (10) and start-up (R184, R185): part reset, the load and the reconciliations, records
ready, the writing of units, and FORMAT RECORDS. -/

namespace Sys2Proof.Machine

/-! ### What a unit writes (R187) -/

/-- One change written into record memory. -/
def Change.write (m : RecordMemory) : Change → RecordMemory
  | .title n (some t) => { m with titles := Table.set n t m.titles }
  | .title n none => { m with titles := Table.erase n m.titles }
  | .patron slot (some p) => { m with patrons := Table.set slot p m.patrons }
  | .patron slot none => { m with patrons := Table.erase slot m.patrons }
  | .loan tag (some l) => { m with loans := Table.set tag l m.loans }
  | .loan tag none => { m with loans := Table.erase tag m.loans }
  | .nextTag tag => { m with nextTag := tag }
  | .bin r b => { m with bins := m.bins.set r b }
  | .setting n v => { m with settings := writeSetting n v m.settings }
  | .day d => { m with day := d }
  | .mark bytes => { m with mark := bytes }
  | .formatTables => { RecordMemory.unwritten with mark := m.mark }

/-- A unit written whole, with its closing mark (R187). -/
def RecordMemory.write (m : RecordMemory) (u : WriteUnit) : RecordMemory := u.foldl Change.write m

/-! ### Part reset (R184) -/

/-- The bays after part reset: EMPTY, their switches as they are (R89). -/
def resetBays (bays : Vector Bay 16) : Vector Bay 16 :=
  bays.map (fun x => { Bay.vacant with presence := x.presence })

/-- Part reset: every block afresh; what outlasts it is the record memory, the title store's content, and the levels of
the input pins (R184, log entry 11). An exchange in progress on a port is dropped and its reply hands nothing over (DESIGN
CHOICE, log entry 50). -/
def takePartReset (s : State) : State :=
  { State.reset with
    pending := s.pending
    mem := s.mem
    store := s.store
    bays := resetBays s.bays
    recog := .idle s.recog.presence
    cp := .empty s.cp.resetLine
    fp := .empty s.fp.resetLine }

/-! ### The format mark and the load (R189) -/

/-- Both ports enter UNFORMATTED, nothing loaded (R184, R189). -/
def State.enterUnformatted (s : State) : State := { s with mode := .unformatted, startup := .settled }

def takeFormatMarkRead (answered : Bool) (s : State) : State :=
  match s.startup with
  | .readingMark limit =>
    if answered then
      match testMark s.mem.mark with
      | .valid => { s with startup := .loading }
      | .absent => s.enterUnformatted
      | .invalid => s.enterUnformatted
    else (s.expire limit).enterUnformatted
  | _ => s

/-- Is a loan PLANNED or COPYING: does it pin its titles (R24)? -/
def Loan.pinning (l : Loan) : Bool := l.state == .planned || l.state == .copying

/-- The pin count of a title after a load (R24). -/
def pinCount (loans : Table Loan) (n : Nat) : Nat := loans.countP (fun e => e.2.pinning && e.2.names n)

/-- A CARTRIDGE title reconciled: none where its record is freed (R24). No rule gives its staging sum, which is 0 (DESIGN
CHOICE, log entry 48). -/
def CartTitle.reconcile (loans : Table Loan) (n : Nat) (c : CartTitle) : Option CartTitle :=
  let pins := pinCount loans n
  let c := { c with pins := pins, received := 0, stagingSum := .zero, idleTimer := none }
  match c.state with
  | .staging => some c.becomeAbsent
  | .damaged => some (if pins = 0 then c.becomeAbsent else c)
  | .retiring => if pins = 0 then none else some c
  | .absent => some c
  | .resident => some c

/-- A title record reconciled (R24). -/
def Title.reconcile (loans : Table Loan) (n : Nat) (t : Title) : Option Title :=
  match t.body with
  | .cart c => (c.reconcile loans n).map (fun c => { withdrawing := false, body := .cart c })
  | .vol v => some { withdrawing := false, body := .vol v }

/-- The titles reconciled, each with the record loaded (R24). -/
def reconcileTitles (m : RecordMemory) : List (Nat × Title × Option Title) :=
  m.titles.map (fun e => (e.1, e.2, e.2.reconcile m.loans e.1))

/-- The free-extent map of the titles that remain (R24 step 6). -/
def mapOf (titles : Table Title) : List Run :=
  titles.foldl
    (fun free e => match e.2.body with
      | .cart c => c.runs.foldl (fun f r => takeFree r f) free
      | .vol _ => free)
    allFree

/-- A reader with the counts of the persistent loans (R40). -/
def Patron.reconcile (loans : Table Loan) (p : Patron) : Patron :=
  { p with
    loansOut := loans.countP (fun e => e.2.patron == p.number && e.2.state.live)
    returnsOpen := loans.countP (fun e => e.2.patron == p.number && e.2.state == .returning) }

/-- A loan reconciled (R63). -/
def Loan.reconcile (l : Loan) : Loan :=
  { l with bay := none, state := if l.state = .copying then .planned else l.state }

/-- A job put in its place: by plan day, after those of the same day (R110). -/
def insertJob (x : Nat × Nat) : List (Nat × Nat) → List (Nat × Nat)
  | [] => [x]
  | y :: rest => if x.1 < y.1 then x :: y :: rest else y :: insertJob x rest

/-- The copy queue rebuilt from the persistent loans (R110). -/
def rebuildQueue (loans : Table Loan) : List Job :=
  let due := loans.filter (fun e => e.2.medium == .cartridge && e.2.pinning)
  (due.foldl (fun q e => insertJob (e.2.planDay, e.1) q) []).map (fun x => Job.mk x.2 none 0 none none)

/-- A setting loaded, clamped to its range (R189). -/
def clampLoaded (n v : Nat) : Nat :=
  match paramOf n with
  | some row => row.clamp v
  | none => v

/-- The units that the reconciliations hand: titles, loans and settings that the load changed (R189, R190), in this one of
the orders R190 allows (DESIGN CHOICE, log entry 46). -/
def reconcileUnits (m : RecordMemory) : List WriteUnit :=
  (reconcileTitles m).filterMap (fun (n, before, after) =>
      if after.map Title.kept = some before.kept then none else some [.title n (after.map Title.kept)]) ++
    m.loans.filterMap (fun e => if e.2.reconcile = e.2 then none else some [.loan e.1 (some e.2.reconcile)]) ++
    m.settings.filterMap (fun e => if clampLoaded e.1 e.2 = e.2 then none else some [.setting e.1 (clampLoaded e.1 e.2)])

/-- Each block is handed its records and reconciles them (R190). -/
def State.load (s : State) : State :=
  let m := s.mem
  let titles := (reconcileTitles m).filterMap (fun (n, _, after) => after.map (fun t => (n, t)))
  { s with
    startup := .reconciled
    dayCount := m.day
    nextTag := m.nextTag
    settings := m.settings.foldl (fun t e => writeSetting e.1 (clampLoaded e.1 e.2) t) []
    titles := titles
    freeMap := mapOf titles
    patrons := m.patrons.map (fun e => (e.1, e.2.reconcile m.loans))
    loans := m.loans.map (fun e => (e.1, e.2.reconcile))
    returned := m.loans.countP (fun e => e.2.state == .copying)
    copyQueue := rebuildQueue m.loans
    bins := m.bins.map (fun b => { state := b.state, list := b.list, closeTimer := none })
    writeQueue := s.writeQueue ++ reconcileUnits m }

def takeRecordLoadComplete (ok : Bool) (s : State) : State :=
  match s.startup with
  | .loading => if ok then s.load else s.enterUnformatted
  | _ => s

/-! ### Records ready (R185, R190) -/

/-- STARTED on both ports (R185). -/
def State.notifyStarted (s : State) : State :=
  s.notifyBoth
    (note .started s.dayCount
      [s.titles.length, s.patrons.length, s.loans.countP (fun e => e.2.state.live), s.returned])

/-- Every rebuilt job is bayless and seeks a pool bay, in queue order (R100, R110). -/
def State.seekAll (s : State) : State := s.copyQueue.foldl (fun t j => t.seekBay j.tag) s

/-- Every bay whose presence switch is on becomes IDENTIFYING (R89). -/
def State.seatAll (s : State) : State :=
  allBays.foldl (fun t b => if (t.bay b).presence then t.seat b else t) s

/-- The close timers of the OPEN bins that hold loans start afresh (R143). -/
def State.retimeBins (s : State) : State := (List.finRange 32).foldl (fun t r => t.retimeBin r) s

/-- What every block does at records ready, once the ports are READY (R190). -/
def State.beginRunning (s : State) : State :=
  let t := (s.notifyStarted.trigger).startScan
  ((t.seekAll.seatAll.retimeBins).buildStations).appendJob .home

def takeRecordsReady (s : State) : State :=
  let ready : State :=
    { s with
      mode := .ready
      startup := .settled
      writeDeadline := if s.writeQueue.isEmpty then none else some (s.now + Config.recordAnswerTime) }
  match s.startup with
  | .reconciled => ready.beginRunning
  | .formatted => ready.beginRunning.endPosted .cp
  | _ => s

/-! ### The writing of units (R188) -/

/-- What follows the writing of a unit: the new day taken and the scan started (R59), or the format complete (R191). -/
def State.unitWritten (u : WriteUnit) (s : State) : State :=
  match u with
  | [.day d] => State.startScan { s with dayCount := d }
  | [.mark bytes] =>
    if s.startup = .formatting ∧ bytes = formatMark then { s with startup := .formatted } else s
  | _ => s

/-- The oldest unit is written again from its beginning (R188). -/
def State.rewrite (s : State) : State := { s with writeDeadline := some (s.now + Config.recordAnswerTime) }

/-- The oldest unit has read back equal and leaves the queue (R188). Until then it is not in record memory: a part reset
between its closing mark and its reading back loses it (DESIGN CHOICE, log entry 45). -/
def State.finishUnit (s : State) : State :=
  match s.writeQueue with
  | [] => s
  | u :: rest =>
    State.unitWritten u
      { s with
        mem := s.mem.write u
        writeQueue := rest
        writeDeadline := if rest.isEmpty then none else some (s.now + Config.recordAnswerTime) }

def takeUnitWriteAckTimeout (s : State) : State :=
  match s.writeDeadline with
  | none => s
  | some limit => (s.expire limit).rewrite

/-! ### FORMAT RECORDS (R191, R192) -/

/-- The writes of a format after the erasure of the mark: the empty tables and defaults, then the mark (R191). -/
def State.handFormat (s : State) : State := (s.hand [.formatTables]).hand [.mark formatMark]

/-- The erasure of the mark, if record memory holds one (R191 step 1). -/
def State.handErasure (s : State) : State :=
  if testMark s.mem.mark = .absent then s else s.hand [.mark erasedMark]

/-- The format's event at the blocks, while READY with an empty Loan Table (R192, R64, R133, R151). The decreases and
restorations handed over and not yet taken are dropped with the readers they name, so that none lowers the loans-out of
a reader enrolled afterwards (R29; DEDUCED, log entry 38). -/
def State.formatBlocks (s : State) : State :=
  State.buildStations
    { s with
      titles := [], freeMap := allFree, patrons := [], decreases := [], restorations := [], settings := []
      nextTag := 1, dayCount := 0, engine := .idle
      bins := Vector.replicate 32 .fresh
      lineJobs := s.lineJobs.take 1 }

/-- FORMAT RECORDS (R191, R192). In READY a part reset before the erasure of the mark has been written finds the former
mark and records, since the writes wait in the write queue (R188; DEDUCED, log entry 47). -/
def applyFormatRecords (s : State) : State :=
  match s.mode with
  | .unformatted => (State.handErasure { s with startup := .formatting }).handFormat
  | .starting => s
  | .ready =>
    if s.loans.isEmpty then ((s.formatBlocks.hand [.mark erasedMark]).handFormat).endPosted .cp
    else s.refuse .cp .formatRecords 0 .loansOut [s.loans.length]

end Sys2Proof.Machine
end

