-- ==== Sys2Proof/Machine/Returns.lean ====
section
/-! DEFINITION. Returns Station (08): the recognition of a returned container, from the presence rise to the acceptance
or the failure. -/

namespace Sys2Proof.Machine

/-! ### Failures and the return to IDLE (R165, R166) -/

/-- The recognizer back in IDLE: timers stopped, a read outstanding abandoned, tag and patron number cleared (R162,
R165). -/
def Recognizer.stop (r : Recognizer) : Recognizer :=
  { r with
    stage := .idle, tag := none, patron := none, readOutstanding := false, tagReadTimer := none, dwellTimer := none,
    dropoutTimer := none, clearTimer := none, departureTimer := none }

/-- A recognition fails: RETURN UNREAD with the tag read from the card, the stage and the gaps (R165). -/
def State.failRecognition (why : Reason) (stage : Stage) (tag : Nat) (s : State) : State :=
  let key := if 1 ≤ tag ∧ tag ≤ Config.maxTag then tag else 0
  State.notify .fp (noteFor .returnUnread key why [stage.number, s.recog.gapCount, s.recog.longestGap])
    { s with recog := s.recog.stop }

/-- A recognition fails in the stage it stands in, with the tag kept (R165). -/
def State.failHere (why : Reason) (s : State) : State :=
  s.failRecognition why s.recog.stage (orZero s.recog.tag)

def applyRejectContainer (s : State) : State :=
  match s.recog.stage with
  | .idle => s.refuse .fp .rejectContainer 0 .wrongState []
  | .accepted => s.refuse .fp .rejectContainer 0 .wrongState []
  | .sensed => (s.failHere .rejected).endPosted .fp
  | .tagRead => (s.failHere .rejected).endPosted .fp
  | .settled => (s.failHere .rejected).endPosted .fp

/-! ### Settling (R158) -/

/-- The recognizer enters SETTLED once dwell met, a tag kept and presence on without a gap hold together (R158,
R160). -/
def State.settle (s : State) : State :=
  let r := s.recog
  if r.dwellMet ∧ r.stage = .tagRead ∧ r.presence ∧ r.dropoutTimer = none then
    { s with
      recog :=
        { r with
          stage := .settled, dropoutTimer := none, dwellTimer := none
          departureTimer := some (s.now + s.departureWindow) } }
  else s

/-! ### The presence sensor (R154, R159, R160) -/

/-- A recognition begins (R154). -/
def State.beginRecognition (s : State) : State :=
  { s with
    recog :=
      { Recognizer.idle true with
        stage := .sensed, readOutstanding := true
        tagReadTimer := some (s.now + s.tagReadLimit), dwellTimer := some (s.now + s.dwellTime) } }

/-- A count held at 255. -/
def countUp (n : Nat) : Nat := min 255 (n + 1)

/-- A rise before SETTLED ends the gap in progress (R159, log entry 22). -/
def State.endGap (limit : Nat) (s : State) : State :=
  let r := s.recog
  let length := min s.now limit - r.gapStart
  State.settle
    { s with
      recog :=
        { r with
          presence := true, dropoutTimer := none, gapCount := countUp r.gapCount
          longestGap := max r.longestGap length } }

def takeReturnsPresenceRise (s : State) : State :=
  let r := s.recog
  if r.presence then s
  else
    let seen : State := { s with recog := { r with presence := true } }
    match r.stage with
    | .idle => if s.isReady then s.beginRecognition else seen
    | .sensed => match r.dropoutTimer with
      | some limit => s.endGap limit
      | none => seen
    | .tagRead => match r.dropoutTimer with
      | some limit => s.endGap limit
      | none => seen
    | .settled =>
      if r.clearTimer.isSome then
        { s with
          recog := { r with presence := true, clearTimer := none, falseDepartures := countUp r.falseDepartures } }
      else seen
    | .accepted => seen

/-- A gap begins before SETTLED (R159). -/
def State.beginGap (s : State) : State :=
  { s with
    recog := { s.recog with presence := false, gapStart := s.now, dropoutTimer := some (s.now + s.dropoutLimit) } }

def takeReturnsPresenceFall (s : State) : State :=
  let r := s.recog
  if r.presence then
    match r.stage with
    | .idle => { s with recog := { r with presence := false } }
    | .sensed => s.beginGap
    | .tagRead => s.beginGap
    | .settled => { s with recog := { r with presence := false, clearTimer := some (s.now + s.clearTime) } }
    | .accepted => { s with recog := { r with presence := false } }
  else s

/-! ### The tag card (R155, R157) -/

/-- Is a loan out: MAILED or OVERDUE? -/
def LoanState.out : LoanState → Bool
  | .mailed => true
  | .overdue => true
  | .planned => false
  | .copying => false
  | .written => false
  | .picked => false
  | .bagged => false
  | .returning => false

/-- The Loan Table's answer for a tag and a patron number: the loan, or the reason it fails for (R157, R163). -/
def State.outLoan (s : State) (tag patron : Nat) : Except Reason Loan :=
  if tag = 0 ∨ Config.maxTag < tag then .error .unknownTag
  else
    match s.loan tag with
    | none => .error .unknownTag
    | some l =>
      if l.patron ≠ patron then .error .unknownTag else if l.state.out then .ok l else .error .notOut

/-- The lookup of a card (R157). -/
def State.lookUp (tag patron : Nat) (s : State) : State :=
  let t : State := { s with recog := { s.recog with readOutstanding := false, tagReadTimer := none } }
  match s.outLoan tag patron with
  | .error why => t.failRecognition why .sensed tag
  | .ok _ => State.settle { t with recog := { t.recog with stage := .tagRead, tag := some tag, patron := some patron } }

def takeReadTagAnswer (answer : List Byte) (s : State) : State :=
  if s.recog.stage = .sensed ∧ s.recog.readOutstanding then
    match parseTagAnswer answer with
    | .card tag patron => s.lookUp tag patron
    | .noCard => s
  else s

/-! ### The acceptance (R162, R163) -/

/-- A return is taken: the loan RETURNING, the reader's counts moved, both ports told (R52, R162). -/
def State.acceptReturn (tag : Nat) (l : Loan) (s : State) : State :=
  let r := s.recog
  let t := s.saveLoan tag { l with state := .returning }
  let t := match t.reader l.patron with
    | some (slot, p) =>
      (t.putPatron slot { p with loansOut := p.loansOut - 1, returnsOpen := p.returnsOpen + 1 }).trigger
    | none => t
  let t := t.notifyAccepted tag l r.gapCount r.longestGap r.falseDepartures
  { t with recog := t.recog.stop }

/-- The departure has been seen: the acceptance is taken (R160, R162, R163). -/
def State.depart (s : State) : State :=
  let tag := orZero s.recog.tag
  match s.outLoan tag (orZero s.recog.patron) with
  | .ok l => s.acceptReturn tag l
  | .error why => s.failRecognition why .accepted tag

/-! ### The timers (R156, R158 to R161) -/

def takeTagReadTimerExpiry (s : State) : State :=
  match s.recog.stage, s.recog.tagReadTimer with
  | .sensed, some limit => (s.expire limit).failHere .noTag
  | _, _ => s

def takeDwellTimerExpiry (s : State) : State :=
  match s.recog.dwellTimer with
  | none => s
  | some limit =>
    let t := s.expire limit
    State.settle { t with recog := { t.recog with dwellMet := true, dwellTimer := none } }

def takeDropoutTimerExpiry (s : State) : State :=
  match s.recog.dropoutTimer with
  | none => s
  | some limit => (s.expire limit).failHere .bounce

def takeClearTimerExpiry (s : State) : State :=
  match s.recog.stage, s.recog.clearTimer with
  | .settled, some limit => (s.expire limit).depart
  | _, _ => s

def takeDepartureTimerExpiry (s : State) : State :=
  match s.recog.stage, s.recog.departureTimer with
  | .settled, some limit => (s.expire limit).failHere .stuck
  | _, _ => s

end Sys2Proof.Machine
end

