-- ==== Sys2Proof/Machine/Ports.lean ====
section
/-! DEFINITION. Circulation Port and Floor Port (09): the exchange and its reply, immediate requests, the delayed queue
and the results of its queries, port reset. Posted requests stand in Requests.lean. -/

namespace Sys2Proof.Machine

/-! ### The exchange (R168, R169) -/

/-- A request has been taken and its reply decided; it is the port's exchange from now on (R168, log entry 14). -/
def State.reply (p : Port) (r : Reply) (h : HandOver) (s : State) : State :=
  s.setPort p { s.port p with exchange := some { reply := r, handOver := h, ended := false } }

/-- A refusal at the exchange (R170). -/
def State.replyRefused (p : Port) (why : Reason) (s : State) : State := s.reply p (.refused why) .none

/-- Does a delayed entry answer a code and a key? -/
def Delayed.is (d : Delayed) (code : ReqCode) (key : Nat) : Bool := d.code == code && d.key == key

/-- Is a delayed entry COMPLETE? -/
def Delayed.completed (d : Delayed) : Bool :=
  match d.condition with
  | .complete _ _ => true
  | .waiting => false
  | .executing _ => false

/-- A delayed entry freed (R169, R177). -/
def PortUnit.freeEntry (code : ReqCode) (key : Nat) (u : PortUnit) : PortUnit :=
  { u with delayed := u.delayed.filter (fun d => !d.is code key) }

/-- What the end of a reply hands over (R169). -/
def PortUnit.handOver (u : PortUnit) : HandOver → PortUnit
  | .none => u
  | .notice given => { u with notices := if given then u.notices.tail else u.notices, overflow := false }
  | .entry code key => if u.delayed.any (fun d => d.is code key && d.completed) then u.freeEntry code key else u

def takeReplyEnd (p : Port) (s : State) : State :=
  match (s.port p).exchange with
  | none => s
  | some x =>
    if x.ended then s
    else
      let u := (s.port p).handOver x.handOver
      let t := s.setPort p { u with exchange := some { x with ended := true } }
      match p with
      | .cp => t.resumeScan
      | .fp => t

/-- The exchange on a port ends: select has risen. -/
def State.closeExchange (p : Port) (s : State) : State := s.setPort p { s.port p with exchange := none }

/-- The byte a port shifts out as the `n`-th after the request was taken: the reply's, and 0x00 after its end; 0x00 as well
before a request is taken. None while the reset line is low, data out not being driven (R168, R182, R195). -/
def PortUnit.dataOut (u : PortUnit) (n : Nat) : Option Byte :=
  if u.resetLine then none
  else
    match u.exchange with
    | some x => some (x.reply.bytes.getD n 0)
    | none => some 0

def takeExchangeEnd (p : Port) (s : State) : State := s.closeExchange p

def takeExchangeVoid (p : Port) (s : State) : State := s.closeExchange p

/-! ### Headers (R195) -/

def takeMalformedHeader (p : Port) (header : List Byte) (s : State) : State :=
  if (s.port p).resetLine then s else if headerMalformed header then s.replyRefused p .malformed else s

def takeUnknownRequestCode (f : Frame) (code : Byte) (s : State) : State :=
  if (s.port f.port).resetLine then s
  else if (codeOf code.toNat).isNone then s.replyRefused f.port .unknownCode else s

/-! ### The checks at the exchange (R170) -/

/-- The key of a frame. -/
def frameKey (f : Frame) : Nat := f.key.toNat

/-- The first three checks that a request of the code table can fail: payload length, then port (R170). -/
def frameCheck (f : Frame) (code : ReqCode) : Option Reason :=
  if f.payload.length ≠ payloadLength code then some .malformed
  else if takenOn code (frameKey f) f.port then none
  else some .wrongPort

/-! ### Immediate requests (R180 to R182) -/

/-- An immediate request that passes the checks is answered by `go`; while the reset line is low it is not taken
(R170, R182). -/
def State.immediate (code : ReqCode) (f : Frame) (go : State → State) (s : State) : State :=
  if (s.port f.port).resetLine then s
  else match frameCheck f code with
    | some why => s.replyRefused f.port why
    | none => go s

def takeTakeNotice (f : Frame) (s : State) : State :=
  s.immediate .takeNotice f fun s =>
    let u := s.port f.port
    s.reply f.port (.doneNotice u.notices.head? u.overflow (u.notices.length - 1)) (.notice (!u.notices.isEmpty))

/-- The result of a PORT STATUS (R181). -/
def State.portStatus (p : Port) (s : State) : StatusResult :=
  let u := s.port p
  { mode := s.mode, posted := u.posted.length,
    head := if u.applying then u.posted.head?.map PostedReq.code else none, delayed := u.delayed.length,
    completed := u.delayed.countP Delayed.completed, notices := u.notices.length, overflow := u.overflow,
    day := if s.mode = .starting then 0 else s.dayCount }

def takePortStatus (f : Frame) (s : State) : State :=
  s.immediate .portStatus f fun s => s.reply f.port (.doneStatus (s.portStatus f.port)) .none

/-- The queues of a port after a port reset: only the request in application stays (R182, R183), so a request accepted
and not handed over is emptied with its queue, and a head handed over at the end of the application before it stays,
its block having taken it or not (DEDUCED, log entry 58). -/
def PortUnit.reset (u : PortUnit) : PortUnit :=
  { u with posted := if u.applying then u.posted.take 1 else [], delayed := [], notices := [], overflow := false }

/-- A port reset; an emptied CP notice queue lets a waiting scan resume (R60, R182, R183). -/
def State.resetPort (p : Port) (s : State) : State :=
  let t := s.setPort p (s.port p).reset
  match p with
  | .cp => t.resumeScan
  | .fp => t

def takePortReset (f : Frame) (s : State) : State :=
  s.immediate .portReset f fun s => (s.resetPort f.port).reply f.port .doneReset .none

def takePortResetLine (p : Port) (s : State) : State :=
  if (s.port p).resetLine then s
  else
    let t := s.resetPort p
    t.setPort p { t.port p with exchange := none, resetLine := true }

def takePortResetLineRelease (p : Port) (s : State) : State :=
  s.setPort p { s.port p with resetLine := false }

/-! ### Queries (R22, R38, R61, R129, R136, R150, R194) -/

/-- Is a title being written or verified in a channel state (R129)? -/
def ChanState.showsTitle : ChanState → Bool
  | .header => true
  | .image => true
  | .verify => true
  | .idle => false
  | .index => false
  | .tagging => false
  | .draining => false
  | .retryErase => false

/-- The result of a CHANNEL QUERY (R129). The fields R129 reports as held are shown so in every state; what a channel
holds where the worked sequence shows a dash: log entries 20 (RETRY_ERASE), 53 (cartridge block in TAGGING and DRAINING,
DESIGN CHOICE) and 54 (run descriptor sets outside HEADER and IMAGE). -/
def Channel.view (x : Channel) : ChannelView :=
  { state := x.state, stopping := x.stopping, stopCause := x.stopCause, tag := x.tag, bay := x.bay, index := x.index,
    title := if x.state.showsTitle then x.entry.map PlanEntry.title else none,
    setInUse := if x.state = .idle then 0 else if x.second then 2 else 1,
    first := x.setInUse.first, last := x.setInUse.last, now := x.setInUse.now,
    count1 := x.set1.count, count2 := x.set2.count, block := x.block, attempts := x.attempts }

/-- Whole seconds to a timer's expiry, rounded up (R150). -/
def secondsLeft (now limit : Nat) : Nat := (limit - now + 999) / 1000

/-- The result of a BIN QUERY (R150). -/
def State.binView (s : State) (r : RouteNo) : BinView :=
  { state := (s.bin r).state, list := (s.bin r).list, triggerLevel := s.triggerLevel r, closeTimeout := s.closeTimeout r,
    timerLeft := (s.bin r).closeTimer.map (secondsLeft s.now), gateStation := s.gateStation r,
    gateOutput := s.gateOutput r, stationState := s.station (s.gateStation r) }

/-- The routes whose gate station a station is, in rising order (R136). -/
def State.routesOf (s : State) (a : Nat) : List Nat :=
  ((List.finRange 32).filter (fun r => s.gateStation r == a)).map (·.val)

/-- The result of a query, from the records as they stand (R176). -/
def State.answer (s : State) (code : ReqCode) (key : Nat) : QueryResult :=
  match code with
  | .titleQuery => match s.title key with
    | some t => .title t
    | none => .notFound
  | .patronQuery => match s.reader key with
    | some (slot, p) => .patron slot p
    | none => .notFound
  | .loanQuery => match s.loan key with
    | some l => .loan key l
    | none => .notFound
  | .channelQuery => match chanOf key with
    | some c => .channel (s.chan c).view
    | none => .notFound
  | .stationQuery => .station (s.station key) (s.labelStation == key) (s.routesOf key)
  | .binQuery => match routeOf key with
    | some r => .bin (s.binView r)
    | none => .notFound
  | .parameterQuery => match paramOf key with
    | some row => .parameter (s.setting key) row.low row.high row.default row.port
    | none => .notFound
  | _ => .notFound

/-! ### The delayed queue (R174 to R177) -/

/-- A delayed request matched against the delayed queue (R174). -/
def State.present (p : Port) (code : ReqCode) (key : Nat) (s : State) : State :=
  let u := s.port p
  match u.delayed.find? (fun d => d.is code key) with
  | some d =>
    match d.condition with
    | .complete r _ => s.reply p (.doneQuery r) (.entry code key)
    | .waiting => s.reply p .retry .none
    | .executing _ => s.reply p .retry .none
  | none =>
    if u.delayed.length < Config.maxDelayed then
      State.reply p .retry .none
        (s.setPort p { u with delayed := u.delayed ++ [Delayed.mk code key .waiting u.posted.length] })
    else s.reply p .busy .none

/-- A delayed request taken (R170, R174). -/
def State.takeDelayed (code : ReqCode) (f : Frame) (s : State) : State :=
  if (s.port f.port).resetLine then s
  else match frameCheck f code with
    | some why => s.replyRefused f.port why
    | none =>
      if queryKeyOk code (frameKey f) then
        match s.mode with
        | .starting => s.reply f.port .busy .none
        | .unformatted => s.replyRefused f.port .notFormatted
        | .ready => s.present f.port code (frameKey f)
      else s.replyRefused f.port .malformed

def takeTitleQuery (f : Frame) (s : State) : State := s.takeDelayed .titleQuery f
def takePatronQuery (f : Frame) (s : State) : State := s.takeDelayed .patronQuery f
def takeLoanQuery (f : Frame) (s : State) : State := s.takeDelayed .loanQuery f
def takeChannelQuery (f : Frame) (s : State) : State := s.takeDelayed .channelQuery f
def takeStationQuery (f : Frame) (s : State) : State := s.takeDelayed .stationQuery f
def takeBinQuery (f : Frame) (s : State) : State := s.takeDelayed .binQuery f
def takeParameterQuery (f : Frame) (s : State) : State := s.takeDelayed .parameterQuery f

/-- The first WAITING entry starts if its posted mark is clear; those ahead of it have started (R175, R176). -/
def startEntry (answer : ReqCode → Nat → QueryResult) : List Delayed → List Delayed
  | [] => []
  | d :: rest =>
    match d.condition with
    | .waiting => (if d.mark = 0 then { d with condition := .executing (answer d.code d.key) } else d) :: rest
    | .executing _ => d :: startEntry answer rest
    | .complete _ _ => d :: startEntry answer rest

def takeDelayedEntryStart (p : Port) (s : State) : State :=
  let u := s.port p
  s.setPort p { u with delayed := startEntry s.answer u.delayed }

/-- The result of an EXECUTING entry has reached the Port Unit (R176, R177). -/
def Delayed.finish (discard : Nat) (d : Delayed) : Delayed :=
  match d.condition with
  | .executing r => { d with condition := .complete r discard }
  | .waiting => d
  | .complete _ _ => d

def takeDelayedResultComplete (p : Port) (code : ReqCode) (key : Nat) (s : State) : State :=
  let u := s.port p
  s.setPort p
    { u with
      delayed := u.delayed.map (fun d => if d.is code key then d.finish (s.now + s.discardTime p) else d) }

/-- The discard limit of a COMPLETE entry. -/
def PortUnit.discardLimit (u : PortUnit) (code : ReqCode) (key : Nat) : Option Nat :=
  match u.delayed.find? (fun d => d.is code key) with
  | some d =>
    match d.condition with
    | .complete _ limit => some limit
    | .waiting => none
    | .executing _ => none
  | none => none

/-- The expiry of a discard timer (R177). While the entry's DONE reply is still going out the timer runs, and its expiry
frees the entry and sends RESULT DISCARDED beside that reply (DEDUCED, log entry 44). -/
def takeDiscardTimerExpiry (p : Port) (code : ReqCode) (key : Nat) (s : State) : State :=
  match (s.port p).discardLimit code key with
  | none => s
  | some limit =>
    let t := s.expire limit
    (t.setPort p ((t.port p).freeEntry code key)).notify p (note .resultDiscarded key [codeNumber code])

end Sys2Proof.Machine
end

