-- ==== Sys2Proof/Machine/Requests.lean ====
section
/-! DEFINITION. The posted queue (R171, R172): acceptance, the hand-over of the head to its owning block, and one
`take…` for each posted request. -/

namespace Sys2Proof.Machine

/-- The application of a posted request at the block that owns its record (R172). -/
def applyPosted (p : Port) : PostedReq → State → State
  | .defineTitle n d => applyDefineTitle n d
  | .stageBegin n => applyStageBegin n
  | .stageBlock n i bytes => applyStageBlock n i bytes
  | .retireTitle n => applyRetireTitle n
  | .addCopies n count => applyAddCopies n count
  | .removeCopy n => applyRemoveCopy n
  | .enrolPatron number allowance route hold => applyEnrolPatron number allowance route hold
  | .amendPatron number allowance route hold => applyAmendPatron number allowance route hold
  | .removePatron number => applyRemovePatron number
  | .addWant number title front => applyAddWant number title front
  | .dropWant number title => applyDropWant number title
  | .cancelLoan tag => applyCancelLoan tag
  | .declareLost tag => applyDeclareLost tag
  | .advanceDay => applyAdvanceDay
  | .selectNow => applySelectNow
  | .formatRecords => applyFormatRecords
  | .picked tag => applyPicked tag
  | .pickFailed tag => applyPickFailed tag
  | .shelve tag => applyShelve tag
  | .withdrawCopy tag => applyWithdrawCopy tag
  | .ejectBay b => applyEjectBay b
  | .containItem tag => applyContainItem tag
  | .pingStation a => applyPingStation a
  | .bagReplaced r => applyBagReplaced r
  | .routeOff r => applyRouteOff r
  | .routeOn r => applyRouteOn r
  | .rejectContainer => applyRejectContainer
  | .setParameter n v => applySetParameter p n v

/-- The event at the block for the head of a posted queue, which is in application. An event whose units the write queue
has no place for is not taken but waits, its request staying in application (R188). -/
def State.applyHead (p : Port) (s : State) : State :=
  match (s.port p).posted with
  | [] => s
  | q :: _ =>
    if s.fits (applyPosted p q s) then applyPosted p q s else s.hold (.postedApplicationStart p)

/-- The Port Unit hands the head of its posted queue over, if none is in application, unless an overdue scan begun at
records ready holds the CP queue (R63, R172). -/
def State.handHead (p : Port) (s : State) : State :=
  if p = .cp ∧ s.scan.isSome then s else s.setPort p (s.port p).handHead

/-- The application of a head starts: it is handed over, if the end of an application before it has not handed it over
already, and its owning block takes it. A head that the block has taken is not taken again (R172, log entry 5). -/
def State.startPosted (p : Port) (s : State) : State :=
  let t := s.handHead p
  if (t.port p).applying && (t.port p).handed then State.applyHead p (t.setPort p { t.port p with handed := false })
  else s

def takePostedApplicationStart (p : Port) (s : State) : State := s.startPosted p

/-- A posted request that has passed the checks is accepted into a queue with room (R171). It is not in application by
that: a port reset empties it with the queue (R182). `atOnce` says that, accepted into an empty queue, it is handed over
and taken by its block in the same event (R172, log entry 5). -/
def State.queue (p : Port) (q : PostedReq) (atOnce : Bool) (s : State) : State :=
  let u := s.port p
  if u.posted.length < Config.maxPosted then
    let t := (s.setPort p { u with posted := u.posted ++ [q] }).reply p .accepted .none
    if atOnce && u.posted.isEmpty then t.startPosted p else t
  else s.reply p .busy .none

/-- A posted request taken (R170, R171, R186). -/
def State.takePosted (code : ReqCode) (f : Frame) (atOnce : Bool) (s : State) : State :=
  if (s.port f.port).resetLine then s
  else match frameCheck f code with
    | some why => s.replyRefused f.port why
    | none =>
      match parsePosted code (frameKey f) f.payload with
      | none => s.replyRefused f.port .malformed
      | some q =>
        match s.mode with
        | .starting => s.reply f.port .busy .none
        | .unformatted =>
          if code = .formatRecords then s.queue f.port q atOnce else s.replyRefused f.port .notFormatted
        | .ready => s.queue f.port q atOnce

def takeDefineTitle (f : Frame) (atOnce : Bool) (s : State) : State := s.takePosted .defineTitle f atOnce
def takeStageBegin (f : Frame) (atOnce : Bool) (s : State) : State := s.takePosted .stageBegin f atOnce
def takeStageBlock (f : Frame) (atOnce : Bool) (s : State) : State := s.takePosted .stageBlock f atOnce
def takeRetireTitle (f : Frame) (atOnce : Bool) (s : State) : State := s.takePosted .retireTitle f atOnce
def takeAddCopies (f : Frame) (atOnce : Bool) (s : State) : State := s.takePosted .addCopies f atOnce
def takeRemoveCopy (f : Frame) (atOnce : Bool) (s : State) : State := s.takePosted .removeCopy f atOnce
def takeEnrolPatron (f : Frame) (atOnce : Bool) (s : State) : State := s.takePosted .enrolPatron f atOnce
def takeAmendPatron (f : Frame) (atOnce : Bool) (s : State) : State := s.takePosted .amendPatron f atOnce
def takeRemovePatron (f : Frame) (atOnce : Bool) (s : State) : State := s.takePosted .removePatron f atOnce
def takeAddWant (f : Frame) (atOnce : Bool) (s : State) : State := s.takePosted .addWant f atOnce
def takeDropWant (f : Frame) (atOnce : Bool) (s : State) : State := s.takePosted .dropWant f atOnce
def takeCancelLoan (f : Frame) (atOnce : Bool) (s : State) : State := s.takePosted .cancelLoan f atOnce
def takeDeclareLost (f : Frame) (atOnce : Bool) (s : State) : State := s.takePosted .declareLost f atOnce
def takeAdvanceDay (f : Frame) (atOnce : Bool) (s : State) : State := s.takePosted .advanceDay f atOnce
def takeSelectNow (f : Frame) (atOnce : Bool) (s : State) : State := s.takePosted .selectNow f atOnce
def takeFormatRecords (f : Frame) (atOnce : Bool) (s : State) : State := s.takePosted .formatRecords f atOnce
def takePicked (f : Frame) (atOnce : Bool) (s : State) : State := s.takePosted .picked f atOnce
def takePickFailed (f : Frame) (atOnce : Bool) (s : State) : State := s.takePosted .pickFailed f atOnce
def takeShelve (f : Frame) (atOnce : Bool) (s : State) : State := s.takePosted .shelve f atOnce
def takeWithdrawCopy (f : Frame) (atOnce : Bool) (s : State) : State := s.takePosted .withdrawCopy f atOnce
def takeEjectBay (f : Frame) (atOnce : Bool) (s : State) : State := s.takePosted .ejectBay f atOnce
def takeContainItem (f : Frame) (atOnce : Bool) (s : State) : State := s.takePosted .containItem f atOnce
def takePingStation (f : Frame) (atOnce : Bool) (s : State) : State := s.takePosted .pingStation f atOnce
def takeBagReplaced (f : Frame) (atOnce : Bool) (s : State) : State := s.takePosted .bagReplaced f atOnce
def takeRouteOff (f : Frame) (atOnce : Bool) (s : State) : State := s.takePosted .routeOff f atOnce
def takeRouteOn (f : Frame) (atOnce : Bool) (s : State) : State := s.takePosted .routeOn f atOnce
def takeRejectContainer (f : Frame) (atOnce : Bool) (s : State) : State := s.takePosted .rejectContainer f atOnce
def takeSetParameter (f : Frame) (atOnce : Bool) (s : State) : State := s.takePosted .setParameter f atOnce

end Sys2Proof.Machine
end

