-- ==== Sys2Proof/Machine/Replay.lean ====
section
/-! DEFINITION. The events that a full write queue holds back, and their taking when places are free again (R188). -/

namespace Sys2Proof.Machine

/-- The event that a command brings, as it is taken from the list of waiting events. A waiting POSTED_APPLICATION_START
is the event of a request already in application. PART_RESET, RECORD_LOAD_COMPLETE and UNIT_WRITE_COMPLETE never
wait. -/
def retake : Instr → State → State
  | .partReset => id
  | .formatMarkRead answered => takeFormatMarkRead answered
  | .recordLoadComplete _ => id
  | .recordsReady => takeRecordsReady
  | .unitWriteComplete _ _ => id
  | .unitWriteAckTimeout => takeUnitWriteAckTimeout
  | .overdueScanVisit => takeOverdueScanVisit
  | .exchangeVoid p => takeExchangeVoid p
  | .replyEnd p => takeReplyEnd p
  | .malformedHeader p header => takeMalformedHeader p header
  | .unknownRequestCode f code => takeUnknownRequestCode f code
  | .takeNotice f => takeTakeNotice f
  | .portStatus f => takePortStatus f
  | .portReset f => takePortReset f
  | .portResetLine p => takePortResetLine p
  | .postedApplicationStart p => State.applyHead p
  | .defineTitle f atOnce => takeDefineTitle f atOnce
  | .stageBegin f atOnce => takeStageBegin f atOnce
  | .stageBlock f atOnce => takeStageBlock f atOnce
  | .storeTransferComplete => takeStoreTransferComplete
  | .stagingWriteComplete => takeStagingWriteComplete
  | .stagingIdleExpiry title => takeStagingIdleExpiry title
  | .retireTitle f atOnce => takeRetireTitle f atOnce
  | .withdrawalWalkStep => takeWithdrawalWalkStep
  | .addCopies f atOnce => takeAddCopies f atOnce
  | .removeCopy f atOnce => takeRemoveCopy f atOnce
  | .enrolPatron f atOnce => takeEnrolPatron f atOnce
  | .amendPatron f atOnce => takeAmendPatron f atOnce
  | .removePatron f atOnce => takeRemovePatron f atOnce
  | .addWant f atOnce => takeAddWant f atOnce
  | .dropWant f atOnce => takeDropWant f atOnce
  | .restoration pick => takeRestoration pick
  | .loansOutDecrease pick => takeLoansOutDecrease pick
  | .cancelLoan f atOnce => takeCancelLoan f atOnce
  | .declareLost f atOnce => takeDeclareLost f atOnce
  | .advanceDay f atOnce => takeAdvanceDay f atOnce
  | .selectNow f atOnce => takeSelectNow f atOnce
  | .selectionVisit => takeSelectionVisit
  | .formatRecords f atOnce => takeFormatRecords f atOnce
  | .picked f atOnce => takePicked f atOnce
  | .pickFailed f atOnce => takePickFailed f atOnce
  | .shelve f atOnce => takeShelve f atOnce
  | .withdrawCopy f atOnce => takeWithdrawCopy f atOnce
  | .ejectBay f atOnce => takeEjectBay f atOnce
  | .latchEjectPulseEnd b => takeLatchEjectPulseEnd b
  | .containItem f atOnce => takeContainItem f atOnce
  | .pingStation f atOnce => takePingStation f atOnce
  | .bagReplaced f atOnce => takeBagReplaced f atOnce
  | .routeOff f atOnce => takeRouteOff f atOnce
  | .routeOn f atOnce => takeRouteOn f atOnce
  | .rejectContainer f atOnce => takeRejectContainer f atOnce
  | .setParameter f atOnce => takeSetParameter f atOnce
  | .titleQuery f => takeTitleQuery f
  | .patronQuery f => takePatronQuery f
  | .loanQuery f => takeLoanQuery f
  | .channelQuery f => takeChannelQuery f
  | .stationQuery f => takeStationQuery f
  | .binQuery f => takeBinQuery f
  | .parameterQuery f => takeParameterQuery f
  | .delayedEntryStart p => takeDelayedEntryStart p
  | .delayedResultComplete p code key => takeDelayedResultComplete p code key
  | .discardTimerExpiry p code key => takeDiscardTimerExpiry p code key
  | .bayPresenceOn b => takeBayPresenceOn b
  | .bayPresenceOff b => takeBayPresenceOff b
  | .identityRecordReceived b record => takeIdentityRecordReceived b record
  | .identifyStallExpiry b => takeIdentifyStallExpiry b
  | .eraseReadyRise b => takeEraseReadyRise b
  | .eraseTimeLimitExpiry b => takeEraseTimeLimitExpiry b
  | .eraseRereadReceived b record => takeEraseRereadReceived b record
  | .eraseRereadStallExpiry b => takeEraseRereadStallExpiry b
  | .rehomeTimerExpiry tag => takeRehomeTimerExpiry tag
  | .lampChainSendEnd => takeLampChainSendEnd
  | .headerWriteEnd c => takeHeaderWriteEnd c
  | .channelStoreReadComplete c damaged => takeChannelStoreReadComplete c damaged
  | .imageBlockWriteEnd c => takeImageBlockWriteEnd c
  | .indexBlockWriteEnd c => takeIndexBlockWriteEnd c
  | .verifyBlockReadEnd c block => takeVerifyBlockReadEnd c block
  | .writeTagEnd c => takeWriteTagEnd c
  | .drainConfirmation c => takeDrainConfirmation c
  | .cartridgeStallExpiry c => takeCartridgeStallExpiry c
  | .retryEraseEnd c => takeRetryEraseEnd c
  | .retryEraseLimitExpiry c => takeRetryEraseLimitExpiry c
  | .labelAnswer chars => takeLabelAnswer chars
  | .gateAnswer chars => takeGateAnswer chars
  | .pingAnswer chars => takePingAnswer chars
  | .answerTimeExpiry => takeAnswerTimeExpiry
  | .lineAnswerDiscarded chars => takeLineAnswerDiscarded chars
  | .broadcastQuietEnd => takeBroadcastQuietEnd
  | .closeTimerExpiry r => takeCloseTimerExpiry r
  | .returnsPresenceRise => takeReturnsPresenceRise
  | .returnsPresenceFall => takeReturnsPresenceFall
  | .readTagAnswer answer => takeReadTagAnswer answer
  | .tagReadTimerExpiry => takeTagReadTimerExpiry
  | .dwellTimerExpiry => takeDwellTimerExpiry
  | .dropoutTimerExpiry => takeDropoutTimerExpiry
  | .clearTimerExpiry => takeClearTimerExpiry
  | .departureTimerExpiry => takeDepartureTimerExpiry
  | .exchangeEnd p => takeExchangeEnd p
  | .portResetLineRelease p => takePortResetLineRelease p
  | .lineCommandEnd => takeLineCommandEnd
  | .cartridgeReadyRise b => takeCartridgeReadyRise b

/-- A held event comes to be taken, as if it had come at this moment (R188). The expiry of a timer that has been stopped
or restarted since does not occur (R11, R145, R160), nor does the end or the answer of a command that is over (R93,
R116, R132; log entries 8 and 43). -/
def State.takeHeld (h : Held) (s : State) : State :=
  if s.awaits h.event = h.awaited then commit h.event (retake h.event) s else s

/-- Waiting events are taken as long as the write queue has a place, the one picked first and then the oldest; the first
argument bounds the takings by the events there are (R188, log entry 8). -/
def takeWaiting : Nat → Nat → State → State
  | 0, _, s => s
  | n + 1, pick, s =>
    if s.writeQueue.length < Config.maxUnits then
      match pickFrom pick s.waiting with
      | none => s
      | some (h, rest) => takeWaiting n 0 (State.takeHeld h { s with waiting := rest })
    else s

/-- A place is free in the write queue: the waiting events and the taking of a job by an IDLE channel (R109), which waits
like them, are taken, the one picked first; a place past the last waiting event stands for the taking (R188, log entry
8). -/
def State.takePlace (pick : Nat) (s : State) : State :=
  if pick < s.waiting.length then
    let t := takeWaiting s.waiting.length pick s
    lampAfter t t.handOver
  else
    let t := lampAfter s s.handOver
    takeWaiting t.waiting.length 0 t

/-- Is a unit being written: records are ready, or a format is writing (R188, R190, R191)? -/
def State.writing (s : State) : Bool := s.mode != .starting && !s.writeQueue.isEmpty

def takeUnitWriteComplete (equal : Bool) (pick : Nat) (s : State) : State :=
  if s.writing then
    if equal then s.finishUnit.takePlace pick else s.rewrite
  else s

end Sys2Proof.Machine
end

