-- ==== Sys2Proof/Machine/Meanings.lean ====
section
/-! DEFINITION. The meaning of each command, one definition for each row of the table: its event `take…`, taken as R188
lets a full write queue take it and followed by the lamp chain (R91). Every command answers a next state. -/

namespace Sys2Proof.Machine

/-! ### Start-up, record memory and the scan (03, 10) -/

/-- PART_RESET (R184). -/
def execPartReset (s : State) : Host.Outcome State Fault Refusal :=
  .next (takePartReset s)

/-- FORMAT_MARK_READ (R189). -/
def execFormatMarkRead (answered : Bool) (s : State) : Host.Outcome State Fault Refusal :=
  .next (commit (.formatMarkRead answered) (takeFormatMarkRead answered) s)

/-- RECORD_LOAD_COMPLETE (R189). The write queue keeps all the units of the reconciliations, whatever their number
(R188). -/
def execRecordLoadComplete (ok : Bool) (s : State) : Host.Outcome State Fault Refusal :=
  .next (takeRecordLoadComplete ok s)

/-- RECORDS_READY (R190). -/
def execRecordsReady (s : State) : Host.Outcome State Fault Refusal :=
  .next (commit .recordsReady takeRecordsReady s)

/-- UNIT_WRITE_COMPLETE (R188). -/
def execUnitWriteComplete (equal : Bool) (pick : Nat) (s : State) : Host.Outcome State Fault Refusal :=
  .next (takeUnitWriteComplete equal pick s)

/-- UNIT_WRITE_ACK_TIMEOUT (R188). -/
def execUnitWriteAckTimeout (s : State) : Host.Outcome State Fault Refusal :=
  .next (commit .unitWriteAckTimeout takeUnitWriteAckTimeout s)

/-- OVERDUE_SCAN_VISIT (R60). -/
def execOverdueScanVisit (s : State) : Host.Outcome State Fault Refusal :=
  .next (commit .overdueScanVisit takeOverdueScanVisit s)

/-! ### Ports (09) -/

/-- EXCHANGE_VOID (R169). -/
def execExchangeVoid (p : Port) (s : State) : Host.Outcome State Fault Refusal :=
  .next (commit (.exchangeVoid p) (takeExchangeVoid p) s)

/-- REPLY_END (R169). -/
def execReplyEnd (p : Port) (s : State) : Host.Outcome State Fault Refusal :=
  .next (commit (.replyEnd p) (takeReplyEnd p) s)

/-- MALFORMED_HEADER (R195). -/
def execMalformedHeader (p : Port) (header : List Byte) (s : State) : Host.Outcome State Fault Refusal :=
  .next (commit (.malformedHeader p header) (takeMalformedHeader p header) s)

/-- UNKNOWN_REQUEST_CODE (R195). -/
def execUnknownRequestCode (f : Frame) (code : Byte) (s : State) : Host.Outcome State Fault Refusal :=
  .next (commit (.unknownRequestCode f code) (takeUnknownRequestCode f code) s)

/-- TAKE_NOTICE (R180). -/
def execTakeNotice (f : Frame) (s : State) : Host.Outcome State Fault Refusal :=
  .next (commit (.takeNotice f) (takeTakeNotice f) s)

/-- PORT_STATUS (R181). -/
def execPortStatus (f : Frame) (s : State) : Host.Outcome State Fault Refusal :=
  .next (commit (.portStatus f) (takePortStatus f) s)

/-- PORT_RESET (R182). -/
def execPortReset (f : Frame) (s : State) : Host.Outcome State Fault Refusal :=
  .next (commit (.portReset f) (takePortReset f) s)

/-- PORT_RESET_LINE (R182). -/
def execPortResetLine (p : Port) (s : State) : Host.Outcome State Fault Refusal :=
  .next (commit (.portResetLine p) (takePortResetLine p) s)

/-- POSTED_APPLICATION_START (R172). -/
def execPostedApplicationStart (p : Port) (s : State) : Host.Outcome State Fault Refusal :=
  .next (commit (.postedApplicationStart p) (takePostedApplicationStart p) s)

/-! ### Titles and the Title Store (01) -/

/-- DEFINE_TITLE (R2). -/
def execDefineTitle (f : Frame) (atOnce : Bool) (s : State) : Host.Outcome State Fault Refusal :=
  .next (commit (.defineTitle f atOnce) (takeDefineTitle f atOnce) s)

/-- STAGE_BEGIN (R7). -/
def execStageBegin (f : Frame) (atOnce : Bool) (s : State) : Host.Outcome State Fault Refusal :=
  .next (commit (.stageBegin f atOnce) (takeStageBegin f atOnce) s)

/-- STAGE_BLOCK (R8). -/
def execStageBlock (f : Frame) (atOnce : Bool) (s : State) : Host.Outcome State Fault Refusal :=
  .next (commit (.stageBlock f atOnce) (takeStageBlock f atOnce) s)

/-- STORE_TRANSFER_COMPLETE (R12). -/
def execStoreTransferComplete (s : State) : Host.Outcome State Fault Refusal :=
  .next (commit .storeTransferComplete takeStoreTransferComplete s)

/-- STAGING_WRITE_COMPLETE (R9). -/
def execStagingWriteComplete (s : State) : Host.Outcome State Fault Refusal :=
  .next (commit .stagingWriteComplete takeStagingWriteComplete s)

/-- STAGING_IDLE_EXPIRY (R11). -/
def execStagingIdleExpiry (title : Nat) (s : State) : Host.Outcome State Fault Refusal :=
  .next (commit (.stagingIdleExpiry title) (takeStagingIdleExpiry title) s)

/-- RETIRE_TITLE (R16). -/
def execRetireTitle (f : Frame) (atOnce : Bool) (s : State) : Host.Outcome State Fault Refusal :=
  .next (commit (.retireTitle f atOnce) (takeRetireTitle f atOnce) s)

/-- WITHDRAWAL_WALK_STEP (R35). -/
def execWithdrawalWalkStep (s : State) : Host.Outcome State Fault Refusal :=
  .next (commit .withdrawalWalkStep takeWithdrawalWalkStep s)

/-- ADD_COPIES (R19). -/
def execAddCopies (f : Frame) (atOnce : Bool) (s : State) : Host.Outcome State Fault Refusal :=
  .next (commit (.addCopies f atOnce) (takeAddCopies f atOnce) s)

/-- REMOVE_COPY (R20). -/
def execRemoveCopy (f : Frame) (atOnce : Bool) (s : State) : Host.Outcome State Fault Refusal :=
  .next (commit (.removeCopy f atOnce) (takeRemoveCopy f atOnce) s)

/-! ### Patrons and Want Lists (02) -/

/-- ENROL_PATRON (R26). -/
def execEnrolPatron (f : Frame) (atOnce : Bool) (s : State) : Host.Outcome State Fault Refusal :=
  .next (commit (.enrolPatron f atOnce) (takeEnrolPatron f atOnce) s)

/-- AMEND_PATRON (R27). -/
def execAmendPatron (f : Frame) (atOnce : Bool) (s : State) : Host.Outcome State Fault Refusal :=
  .next (commit (.amendPatron f atOnce) (takeAmendPatron f atOnce) s)

/-- REMOVE_PATRON (R28). -/
def execRemovePatron (f : Frame) (atOnce : Bool) (s : State) : Host.Outcome State Fault Refusal :=
  .next (commit (.removePatron f atOnce) (takeRemovePatron f atOnce) s)

/-- ADD_WANT (R33). -/
def execAddWant (f : Frame) (atOnce : Bool) (s : State) : Host.Outcome State Fault Refusal :=
  .next (commit (.addWant f atOnce) (takeAddWant f atOnce) s)

/-- DROP_WANT (R34). -/
def execDropWant (f : Frame) (atOnce : Bool) (s : State) : Host.Outcome State Fault Refusal :=
  .next (commit (.dropWant f atOnce) (takeDropWant f atOnce) s)

/-- RESTORATION (R36). -/
def execRestoration (pick : Nat) (s : State) : Host.Outcome State Fault Refusal :=
  .next (commit (.restoration pick) (takeRestoration pick) s)

/-- LOANS_OUT_DECREASE (R29). -/
def execLoansOutDecrease (pick : Nat) (s : State) : Host.Outcome State Fault Refusal :=
  .next (commit (.loansOutDecrease pick) (takeLoansOutDecrease pick) s)

/-! ### Loans, the Day Count and selection (03, 04, 10) -/

/-- CANCEL_LOAN (R55). -/
def execCancelLoan (f : Frame) (atOnce : Bool) (s : State) : Host.Outcome State Fault Refusal :=
  .next (commit (.cancelLoan f atOnce) (takeCancelLoan f atOnce) s)

/-- DECLARE_LOST (R56). -/
def execDeclareLost (f : Frame) (atOnce : Bool) (s : State) : Host.Outcome State Fault Refusal :=
  .next (commit (.declareLost f atOnce) (takeDeclareLost f atOnce) s)

/-- ADVANCE_DAY (R59). -/
def execAdvanceDay (f : Frame) (atOnce : Bool) (s : State) : Host.Outcome State Fault Refusal :=
  .next (commit (.advanceDay f atOnce) (takeAdvanceDay f atOnce) s)

/-- SELECT_NOW (R66). -/
def execSelectNow (f : Frame) (atOnce : Bool) (s : State) : Host.Outcome State Fault Refusal :=
  .next (commit (.selectNow f atOnce) (takeSelectNow f atOnce) s)

/-- SELECTION_VISIT (R68). -/
def execSelectionVisit (s : State) : Host.Outcome State Fault Refusal :=
  .next (commit .selectionVisit takeSelectionVisit s)

/-- FORMAT_RECORDS (R191). -/
def execFormatRecords (f : Frame) (atOnce : Bool) (s : State) : Host.Outcome State Fault Refusal :=
  .next (commit (.formatRecords f atOnce) (takeFormatRecords f atOnce) s)

/-- PICKED (R48). -/
def execPicked (f : Frame) (atOnce : Bool) (s : State) : Host.Outcome State Fault Refusal :=
  .next (commit (.picked f atOnce) (takePicked f atOnce) s)

/-- PICK_FAILED (R49). -/
def execPickFailed (f : Frame) (atOnce : Bool) (s : State) : Host.Outcome State Fault Refusal :=
  .next (commit (.pickFailed f atOnce) (takePickFailed f atOnce) s)

/-- SHELVE (R54). -/
def execShelve (f : Frame) (atOnce : Bool) (s : State) : Host.Outcome State Fault Refusal :=
  .next (commit (.shelve f atOnce) (takeShelve f atOnce) s)

/-- WITHDRAW_COPY (R54). -/
def execWithdrawCopy (f : Frame) (atOnce : Bool) (s : State) : Host.Outcome State Fault Refusal :=
  .next (commit (.withdrawCopy f atOnce) (takeWithdrawCopy f atOnce) s)

/-! ### Cartridge Bays (05) -/

/-- EJECT_BAY (R106). -/
def execEjectBay (f : Frame) (atOnce : Bool) (s : State) : Host.Outcome State Fault Refusal :=
  .next (commit (.ejectBay f atOnce) (takeEjectBay f atOnce) s)

/-- LATCH_EJECT_PULSE_END (R106). -/
def execLatchEjectPulseEnd (b : BayNo) (s : State) : Host.Outcome State Fault Refusal :=
  .next (commit (.latchEjectPulseEnd b) (takeLatchEjectPulseEnd b) s)

/-! ### Mailing Line, returns and settings (07, 08, 10) -/

/-- CONTAIN_ITEM (R138). -/
def execContainItem (f : Frame) (atOnce : Bool) (s : State) : Host.Outcome State Fault Refusal :=
  .next (commit (.containItem f atOnce) (takeContainItem f atOnce) s)

/-- PING_STATION (R135). -/
def execPingStation (f : Frame) (atOnce : Bool) (s : State) : Host.Outcome State Fault Refusal :=
  .next (commit (.pingStation f atOnce) (takePingStation f atOnce) s)

/-- BAG_REPLACED (R148). -/
def execBagReplaced (f : Frame) (atOnce : Bool) (s : State) : Host.Outcome State Fault Refusal :=
  .next (commit (.bagReplaced f atOnce) (takeBagReplaced f atOnce) s)

/-- ROUTE_OFF (R149). -/
def execRouteOff (f : Frame) (atOnce : Bool) (s : State) : Host.Outcome State Fault Refusal :=
  .next (commit (.routeOff f atOnce) (takeRouteOff f atOnce) s)

/-- ROUTE_ON (R149). -/
def execRouteOn (f : Frame) (atOnce : Bool) (s : State) : Host.Outcome State Fault Refusal :=
  .next (commit (.routeOn f atOnce) (takeRouteOn f atOnce) s)

/-- REJECT_CONTAINER (R166). -/
def execRejectContainer (f : Frame) (atOnce : Bool) (s : State) : Host.Outcome State Fault Refusal :=
  .next (commit (.rejectContainer f atOnce) (takeRejectContainer f atOnce) s)

/-- SET_PARAMETER (R193). -/
def execSetParameter (f : Frame) (atOnce : Bool) (s : State) : Host.Outcome State Fault Refusal :=
  .next (commit (.setParameter f atOnce) (takeSetParameter f atOnce) s)

/-! ### Queries and the delayed queue (09) -/

/-- TITLE_QUERY (R22). -/
def execTitleQuery (f : Frame) (s : State) : Host.Outcome State Fault Refusal :=
  .next (commit (.titleQuery f) (takeTitleQuery f) s)

/-- PATRON_QUERY (R38). -/
def execPatronQuery (f : Frame) (s : State) : Host.Outcome State Fault Refusal :=
  .next (commit (.patronQuery f) (takePatronQuery f) s)

/-- LOAN_QUERY (R61). -/
def execLoanQuery (f : Frame) (s : State) : Host.Outcome State Fault Refusal :=
  .next (commit (.loanQuery f) (takeLoanQuery f) s)

/-- CHANNEL_QUERY (R129). -/
def execChannelQuery (f : Frame) (s : State) : Host.Outcome State Fault Refusal :=
  .next (commit (.channelQuery f) (takeChannelQuery f) s)

/-- STATION_QUERY (R136). -/
def execStationQuery (f : Frame) (s : State) : Host.Outcome State Fault Refusal :=
  .next (commit (.stationQuery f) (takeStationQuery f) s)

/-- BIN_QUERY (R150). -/
def execBinQuery (f : Frame) (s : State) : Host.Outcome State Fault Refusal :=
  .next (commit (.binQuery f) (takeBinQuery f) s)

/-- PARAMETER_QUERY (R194). -/
def execParameterQuery (f : Frame) (s : State) : Host.Outcome State Fault Refusal :=
  .next (commit (.parameterQuery f) (takeParameterQuery f) s)

/-- DELAYED_ENTRY_START (R175). -/
def execDelayedEntryStart (p : Port) (s : State) : Host.Outcome State Fault Refusal :=
  .next (commit (.delayedEntryStart p) (takeDelayedEntryStart p) s)

/-- DELAYED_RESULT_COMPLETE (R176). -/
def execDelayedResultComplete (p : Port) (code : ReqCode) (key : Nat)
    (s : State) : Host.Outcome State Fault Refusal :=
  .next (commit (.delayedResultComplete p code key) (takeDelayedResultComplete p code key) s)

/-- DISCARD_TIMER_EXPIRY (R177). -/
def execDiscardTimerExpiry (p : Port) (code : ReqCode) (key : Nat) (s : State) : Host.Outcome State Fault Refusal :=
  .next (commit (.discardTimerExpiry p code key) (takeDiscardTimerExpiry p code key) s)

/-! ### Bay events (05) -/

/-- BAY_PRESENCE_ON (R93). -/
def execBayPresenceOn (b : BayNo) (s : State) : Host.Outcome State Fault Refusal :=
  .next (commit (.bayPresenceOn b) (takeBayPresenceOn b) (s.samplePresence b true))

/-- BAY_PRESENCE_OFF (R104). -/
def execBayPresenceOff (b : BayNo) (s : State) : Host.Outcome State Fault Refusal :=
  .next (commit (.bayPresenceOff b) (takeBayPresenceOff b) (s.samplePresence b false))

/-- IDENTITY_RECORD_RECEIVED (R95). -/
def execIdentityRecordReceived (b : BayNo) (record : List Byte) (s : State) : Host.Outcome State Fault Refusal :=
  .next (commit (.identityRecordReceived b record) (takeIdentityRecordReceived b record) s)

/-- IDENTIFY_STALL_EXPIRY (R93). -/
def execIdentifyStallExpiry (b : BayNo) (s : State) : Host.Outcome State Fault Refusal :=
  .next (commit (.identifyStallExpiry b) (takeIdentifyStallExpiry b) s)

/-- ERASE_READY_RISE (R98). -/
def execEraseReadyRise (b : BayNo) (s : State) : Host.Outcome State Fault Refusal :=
  .next (commit (.eraseReadyRise b) (takeEraseReadyRise b) s)

/-- ERASE_TIME_LIMIT_EXPIRY (R98). -/
def execEraseTimeLimitExpiry (b : BayNo) (s : State) : Host.Outcome State Fault Refusal :=
  .next (commit (.eraseTimeLimitExpiry b) (takeEraseTimeLimitExpiry b) s)

/-- ERASE_REREAD_RECEIVED (R98). -/
def execEraseRereadReceived (b : BayNo) (record : List Byte) (s : State) : Host.Outcome State Fault Refusal :=
  .next (commit (.eraseRereadReceived b record) (takeEraseRereadReceived b record) s)

/-- ERASE_REREAD_STALL_EXPIRY (R98). -/
def execEraseRereadStallExpiry (b : BayNo) (s : State) : Host.Outcome State Fault Refusal :=
  .next (commit (.eraseRereadStallExpiry b) (takeEraseRereadStallExpiry b) s)

/-- REHOME_TIMER_EXPIRY (R101). -/
def execRehomeTimerExpiry (tag : Nat) (s : State) : Host.Outcome State Fault Refusal :=
  .next (commit (.rehomeTimerExpiry tag) (takeRehomeTimerExpiry tag) s)

/-- LAMP_CHAIN_SEND_END (R91). -/
def execLampChainSendEnd (s : State) : Host.Outcome State Fault Refusal :=
  .next (commit .lampChainSendEnd takeLampChainSendEnd s)

/-! ### Copy channel events (06) -/

/-- HEADER_WRITE_END (R115). -/
def execHeaderWriteEnd (c : Chan) (s : State) : Host.Outcome State Fault Refusal :=
  .next (commit (.headerWriteEnd c) (takeHeaderWriteEnd c) s)

/-- CHANNEL_STORE_READ_COMPLETE (R117). -/
def execChannelStoreReadComplete (c : Chan) (damaged : Option (List Byte))
    (s : State) : Host.Outcome State Fault Refusal :=
  .next (commit (.channelStoreReadComplete c damaged) (takeChannelStoreReadComplete c damaged) s)

/-- IMAGE_BLOCK_WRITE_END (R117). -/
def execImageBlockWriteEnd (c : Chan) (s : State) : Host.Outcome State Fault Refusal :=
  .next (commit (.imageBlockWriteEnd c) (takeImageBlockWriteEnd c) s)

/-- INDEX_BLOCK_WRITE_END (R119). -/
def execIndexBlockWriteEnd (c : Chan) (s : State) : Host.Outcome State Fault Refusal :=
  .next (commit (.indexBlockWriteEnd c) (takeIndexBlockWriteEnd c) s)

/-- VERIFY_BLOCK_READ_END (R120). -/
def execVerifyBlockReadEnd (c : Chan) (block : List Byte) (s : State) : Host.Outcome State Fault Refusal :=
  .next (commit (.verifyBlockReadEnd c block) (takeVerifyBlockReadEnd c block) s)

/-- WRITE_TAG_END (R121). -/
def execWriteTagEnd (c : Chan) (s : State) : Host.Outcome State Fault Refusal :=
  .next (commit (.writeTagEnd c) (takeWriteTagEnd c) s)

/-- DRAIN_CONFIRMATION (R122). -/
def execDrainConfirmation (c : Chan) (s : State) : Host.Outcome State Fault Refusal :=
  .next (commit (.drainConfirmation c) (takeDrainConfirmation c) s)

/-- CARTRIDGE_STALL_EXPIRY (R116). -/
def execCartridgeStallExpiry (c : Chan) (s : State) : Host.Outcome State Fault Refusal :=
  .next (commit (.cartridgeStallExpiry c) (takeCartridgeStallExpiry c) s)

/-- RETRY_ERASE_END (R124). -/
def execRetryEraseEnd (c : Chan) (s : State) : Host.Outcome State Fault Refusal :=
  .next (commit (.retryEraseEnd c) (takeRetryEraseEnd c) s)

/-- RETRY_ERASE_LIMIT_EXPIRY (R124). -/
def execRetryEraseLimitExpiry (c : Chan) (s : State) : Host.Outcome State Fault Refusal :=
  .next (commit (.retryEraseLimitExpiry c) (takeRetryEraseLimitExpiry c) s)

/-! ### Mailing line events (07) -/

/-- LABEL_ANSWER (R140). -/
def execLabelAnswer (chars : List LineChar) (s : State) : Host.Outcome State Fault Refusal :=
  .next (commit (.labelAnswer chars) (takeLabelAnswer chars) s)

/-- GATE_ANSWER (R142). -/
def execGateAnswer (chars : List LineChar) (s : State) : Host.Outcome State Fault Refusal :=
  .next (commit (.gateAnswer chars) (takeGateAnswer chars) s)

/-- PING_ANSWER (R135). -/
def execPingAnswer (chars : List LineChar) (s : State) : Host.Outcome State Fault Refusal :=
  .next (commit (.pingAnswer chars) (takePingAnswer chars) s)

/-- ANSWER_TIME_EXPIRY (R132). -/
def execAnswerTimeExpiry (s : State) : Host.Outcome State Fault Refusal :=
  .next (commit .answerTimeExpiry takeAnswerTimeExpiry s)

/-- LINE_ANSWER_DISCARDED (R197). -/
def execLineAnswerDiscarded (chars : List LineChar) (s : State) : Host.Outcome State Fault Refusal :=
  .next (commit (.lineAnswerDiscarded chars) (takeLineAnswerDiscarded chars) s)

/-- BROADCAST_QUIET_END (R132). -/
def execBroadcastQuietEnd (s : State) : Host.Outcome State Fault Refusal :=
  .next (commit .broadcastQuietEnd takeBroadcastQuietEnd s)

/-- CLOSE_TIMER_EXPIRY (R145). -/
def execCloseTimerExpiry (r : RouteNo) (s : State) : Host.Outcome State Fault Refusal :=
  .next (commit (.closeTimerExpiry r) (takeCloseTimerExpiry r) s)

/-! ### Returns station events (08) -/

/-- RETURNS_PRESENCE_RISE (R154). -/
def execReturnsPresenceRise (s : State) : Host.Outcome State Fault Refusal :=
  .next (commit .returnsPresenceRise takeReturnsPresenceRise s)

/-- RETURNS_PRESENCE_FALL (R159). -/
def execReturnsPresenceFall (s : State) : Host.Outcome State Fault Refusal :=
  .next (commit .returnsPresenceFall takeReturnsPresenceFall s)

/-- READ_TAG_ANSWER (R155). -/
def execReadTagAnswer (answer : List Byte) (s : State) : Host.Outcome State Fault Refusal :=
  .next (commit (.readTagAnswer answer) (takeReadTagAnswer answer) s)

/-- TAG_READ_TIMER_EXPIRY (R156). -/
def execTagReadTimerExpiry (s : State) : Host.Outcome State Fault Refusal :=
  .next (commit .tagReadTimerExpiry takeTagReadTimerExpiry s)

/-- DWELL_TIMER_EXPIRY (R158). -/
def execDwellTimerExpiry (s : State) : Host.Outcome State Fault Refusal :=
  .next (commit .dwellTimerExpiry takeDwellTimerExpiry s)

/-- DROPOUT_TIMER_EXPIRY (R159). -/
def execDropoutTimerExpiry (s : State) : Host.Outcome State Fault Refusal :=
  .next (commit .dropoutTimerExpiry takeDropoutTimerExpiry s)

/-- CLEAR_TIMER_EXPIRY (R160). -/
def execClearTimerExpiry (s : State) : Host.Outcome State Fault Refusal :=
  .next (commit .clearTimerExpiry takeClearTimerExpiry s)

/-- DEPARTURE_TIMER_EXPIRY (R161). -/
def execDepartureTimerExpiry (s : State) : Host.Outcome State Fault Refusal :=
  .next (commit .departureTimerExpiry takeDepartureTimerExpiry s)

/-! ### Line levels and command ends (06, 07, 09) -/

/-- EXCHANGE_END (R169). -/
def execExchangeEnd (p : Port) (s : State) : Host.Outcome State Fault Refusal :=
  .next (commit (.exchangeEnd p) (takeExchangeEnd p) s)

/-- PORT_RESET_LINE_RELEASE (R182). -/
def execPortResetLineRelease (p : Port) (s : State) : Host.Outcome State Fault Refusal :=
  .next (commit (.portResetLineRelease p) (takePortResetLineRelease p) s)

/-- LINE_COMMAND_END (R132). -/
def execLineCommandEnd (s : State) : Host.Outcome State Fault Refusal :=
  .next (commit .lineCommandEnd takeLineCommandEnd s)

/-- CARTRIDGE_READY_RISE (R116). -/
def execCartridgeReadyRise (b : BayNo) (s : State) : Host.Outcome State Fault Refusal :=
  .next (commit (.cartridgeReadyRise b) (takeCartridgeReadyRise b) s)

end Sys2Proof.Machine
end

