-- ==== Sys2Proof/Machine/Dispatch.lean ====
section
/-! DEFINITION. The dispatch of a command to its meaning, one arm for each constructor of Instr. -/

namespace Sys2Proof.Machine

def exec (i : Instr) (s : State) : Host.Outcome State Fault Refusal :=
  match i with
  | .partReset => Sys2Proof.Machine.execPartReset s
  | .formatMarkRead answered => Sys2Proof.Machine.execFormatMarkRead answered s
  | .recordLoadComplete ok => Sys2Proof.Machine.execRecordLoadComplete ok s
  | .recordsReady => Sys2Proof.Machine.execRecordsReady s
  | .unitWriteComplete equal pick => Sys2Proof.Machine.execUnitWriteComplete equal pick s
  | .unitWriteAckTimeout => Sys2Proof.Machine.execUnitWriteAckTimeout s
  | .overdueScanVisit => Sys2Proof.Machine.execOverdueScanVisit s
  | .exchangeVoid p => Sys2Proof.Machine.execExchangeVoid p s
  | .replyEnd p => Sys2Proof.Machine.execReplyEnd p s
  | .malformedHeader p header => Sys2Proof.Machine.execMalformedHeader p header s
  | .unknownRequestCode f code => Sys2Proof.Machine.execUnknownRequestCode f code s
  | .takeNotice f => Sys2Proof.Machine.execTakeNotice f s
  | .portStatus f => Sys2Proof.Machine.execPortStatus f s
  | .portReset f => Sys2Proof.Machine.execPortReset f s
  | .portResetLine p => Sys2Proof.Machine.execPortResetLine p s
  | .postedApplicationStart p => Sys2Proof.Machine.execPostedApplicationStart p s
  | .defineTitle f atOnce => Sys2Proof.Machine.execDefineTitle f atOnce s
  | .stageBegin f atOnce => Sys2Proof.Machine.execStageBegin f atOnce s
  | .stageBlock f atOnce => Sys2Proof.Machine.execStageBlock f atOnce s
  | .storeTransferComplete => Sys2Proof.Machine.execStoreTransferComplete s
  | .stagingWriteComplete => Sys2Proof.Machine.execStagingWriteComplete s
  | .stagingIdleExpiry title => Sys2Proof.Machine.execStagingIdleExpiry title s
  | .retireTitle f atOnce => Sys2Proof.Machine.execRetireTitle f atOnce s
  | .withdrawalWalkStep => Sys2Proof.Machine.execWithdrawalWalkStep s
  | .addCopies f atOnce => Sys2Proof.Machine.execAddCopies f atOnce s
  | .removeCopy f atOnce => Sys2Proof.Machine.execRemoveCopy f atOnce s
  | .enrolPatron f atOnce => Sys2Proof.Machine.execEnrolPatron f atOnce s
  | .amendPatron f atOnce => Sys2Proof.Machine.execAmendPatron f atOnce s
  | .removePatron f atOnce => Sys2Proof.Machine.execRemovePatron f atOnce s
  | .addWant f atOnce => Sys2Proof.Machine.execAddWant f atOnce s
  | .dropWant f atOnce => Sys2Proof.Machine.execDropWant f atOnce s
  | .restoration pick => Sys2Proof.Machine.execRestoration pick s
  | .loansOutDecrease pick => Sys2Proof.Machine.execLoansOutDecrease pick s
  | .cancelLoan f atOnce => Sys2Proof.Machine.execCancelLoan f atOnce s
  | .declareLost f atOnce => Sys2Proof.Machine.execDeclareLost f atOnce s
  | .advanceDay f atOnce => Sys2Proof.Machine.execAdvanceDay f atOnce s
  | .selectNow f atOnce => Sys2Proof.Machine.execSelectNow f atOnce s
  | .selectionVisit => Sys2Proof.Machine.execSelectionVisit s
  | .formatRecords f atOnce => Sys2Proof.Machine.execFormatRecords f atOnce s
  | .picked f atOnce => Sys2Proof.Machine.execPicked f atOnce s
  | .pickFailed f atOnce => Sys2Proof.Machine.execPickFailed f atOnce s
  | .shelve f atOnce => Sys2Proof.Machine.execShelve f atOnce s
  | .withdrawCopy f atOnce => Sys2Proof.Machine.execWithdrawCopy f atOnce s
  | .ejectBay f atOnce => Sys2Proof.Machine.execEjectBay f atOnce s
  | .latchEjectPulseEnd b => Sys2Proof.Machine.execLatchEjectPulseEnd b s
  | .containItem f atOnce => Sys2Proof.Machine.execContainItem f atOnce s
  | .pingStation f atOnce => Sys2Proof.Machine.execPingStation f atOnce s
  | .bagReplaced f atOnce => Sys2Proof.Machine.execBagReplaced f atOnce s
  | .routeOff f atOnce => Sys2Proof.Machine.execRouteOff f atOnce s
  | .routeOn f atOnce => Sys2Proof.Machine.execRouteOn f atOnce s
  | .rejectContainer f atOnce => Sys2Proof.Machine.execRejectContainer f atOnce s
  | .setParameter f atOnce => Sys2Proof.Machine.execSetParameter f atOnce s
  | .titleQuery f => Sys2Proof.Machine.execTitleQuery f s
  | .patronQuery f => Sys2Proof.Machine.execPatronQuery f s
  | .loanQuery f => Sys2Proof.Machine.execLoanQuery f s
  | .channelQuery f => Sys2Proof.Machine.execChannelQuery f s
  | .stationQuery f => Sys2Proof.Machine.execStationQuery f s
  | .binQuery f => Sys2Proof.Machine.execBinQuery f s
  | .parameterQuery f => Sys2Proof.Machine.execParameterQuery f s
  | .delayedEntryStart p => Sys2Proof.Machine.execDelayedEntryStart p s
  | .delayedResultComplete p code key => Sys2Proof.Machine.execDelayedResultComplete p code key s
  | .discardTimerExpiry p code key => Sys2Proof.Machine.execDiscardTimerExpiry p code key s
  | .bayPresenceOn b => Sys2Proof.Machine.execBayPresenceOn b s
  | .bayPresenceOff b => Sys2Proof.Machine.execBayPresenceOff b s
  | .identityRecordReceived b record => Sys2Proof.Machine.execIdentityRecordReceived b record s
  | .identifyStallExpiry b => Sys2Proof.Machine.execIdentifyStallExpiry b s
  | .eraseReadyRise b => Sys2Proof.Machine.execEraseReadyRise b s
  | .eraseTimeLimitExpiry b => Sys2Proof.Machine.execEraseTimeLimitExpiry b s
  | .eraseRereadReceived b record => Sys2Proof.Machine.execEraseRereadReceived b record s
  | .eraseRereadStallExpiry b => Sys2Proof.Machine.execEraseRereadStallExpiry b s
  | .rehomeTimerExpiry tag => Sys2Proof.Machine.execRehomeTimerExpiry tag s
  | .lampChainSendEnd => Sys2Proof.Machine.execLampChainSendEnd s
  | .headerWriteEnd c => Sys2Proof.Machine.execHeaderWriteEnd c s
  | .channelStoreReadComplete c damaged => Sys2Proof.Machine.execChannelStoreReadComplete c damaged s
  | .imageBlockWriteEnd c => Sys2Proof.Machine.execImageBlockWriteEnd c s
  | .indexBlockWriteEnd c => Sys2Proof.Machine.execIndexBlockWriteEnd c s
  | .verifyBlockReadEnd c block => Sys2Proof.Machine.execVerifyBlockReadEnd c block s
  | .writeTagEnd c => Sys2Proof.Machine.execWriteTagEnd c s
  | .drainConfirmation c => Sys2Proof.Machine.execDrainConfirmation c s
  | .cartridgeStallExpiry c => Sys2Proof.Machine.execCartridgeStallExpiry c s
  | .retryEraseEnd c => Sys2Proof.Machine.execRetryEraseEnd c s
  | .retryEraseLimitExpiry c => Sys2Proof.Machine.execRetryEraseLimitExpiry c s
  | .labelAnswer chars => Sys2Proof.Machine.execLabelAnswer chars s
  | .gateAnswer chars => Sys2Proof.Machine.execGateAnswer chars s
  | .pingAnswer chars => Sys2Proof.Machine.execPingAnswer chars s
  | .answerTimeExpiry => Sys2Proof.Machine.execAnswerTimeExpiry s
  | .lineAnswerDiscarded chars => Sys2Proof.Machine.execLineAnswerDiscarded chars s
  | .broadcastQuietEnd => Sys2Proof.Machine.execBroadcastQuietEnd s
  | .closeTimerExpiry r => Sys2Proof.Machine.execCloseTimerExpiry r s
  | .returnsPresenceRise => Sys2Proof.Machine.execReturnsPresenceRise s
  | .returnsPresenceFall => Sys2Proof.Machine.execReturnsPresenceFall s
  | .readTagAnswer answer => Sys2Proof.Machine.execReadTagAnswer answer s
  | .tagReadTimerExpiry => Sys2Proof.Machine.execTagReadTimerExpiry s
  | .dwellTimerExpiry => Sys2Proof.Machine.execDwellTimerExpiry s
  | .dropoutTimerExpiry => Sys2Proof.Machine.execDropoutTimerExpiry s
  | .clearTimerExpiry => Sys2Proof.Machine.execClearTimerExpiry s
  | .departureTimerExpiry => Sys2Proof.Machine.execDepartureTimerExpiry s
  | .exchangeEnd p => Sys2Proof.Machine.execExchangeEnd p s
  | .portResetLineRelease p => Sys2Proof.Machine.execPortResetLineRelease p s
  | .lineCommandEnd => Sys2Proof.Machine.execLineCommandEnd s
  | .cartridgeReadyRise b => Sys2Proof.Machine.execCartridgeReadyRise b s

end Sys2Proof.Machine
end

