-- ==== Sys2Proof/WellFormed.lean ====
section
/-! DEFINITION. Well-formed commands: operands that the outside and the part's own events can bring. -/

namespace Sys2Proof

open Sys2Proof.Machine

/-- A frame's payload is no longer than a header may announce (R195). -/
def frameOk (f : Frame) : Bool := decide (f.payload.length ≤ Config.maxPayload)

/-- The bytes of a block (section 1.3). -/
def blockOk (bytes : List Byte) : Bool := bytes.length == Config.blockBytes

/-- A title number (section 1.1). -/
def titleOk (n : Nat) : Bool := decide (1 ≤ n) && decide (n ≤ 16777215)

/-- Characters that are a whole answer of the station whose address they open with (R197). -/
def answerOk (chars : List LineChar) : Bool :=
  match chars with
  | [] => false
  | a :: _ => stationOk (a.toNat - 256) && (parseAnswer (a.toNat - 256) chars).isSome

/-- A key a delayed entry may have: that of a query that passed its malformed check (R170, R174). -/
def entryOk (code : ReqCode) (key : Nat) : Bool := requestClass code == .delayed && queryKeyOk code key

/-- Are the operands of a command such as its row's event can bring? -/
def Instr.wellFormed : Instr → Bool
  | .partReset => true
  | .formatMarkRead _ => true
  | .recordLoadComplete _ => true
  | .recordsReady => true
  | .unitWriteComplete _ _ => true
  | .unitWriteAckTimeout => true
  | .overdueScanVisit => true
  | .exchangeVoid _ => true
  | .replyEnd _ => true
  | .malformedHeader _ header => header.length == 7 && headerMalformed header
  | .unknownRequestCode f code => frameOk f && (codeOf code.toNat).isNone
  | .takeNotice f => frameOk f
  | .portStatus f => frameOk f
  | .portReset f => frameOk f
  | .portResetLine _ => true
  | .postedApplicationStart _ => true
  | .defineTitle f _ => frameOk f
  | .stageBegin f _ => frameOk f
  | .stageBlock f _ => frameOk f
  | .storeTransferComplete => true
  | .stagingWriteComplete => true
  | .stagingIdleExpiry n => titleOk n
  | .retireTitle f _ => frameOk f
  | .withdrawalWalkStep => true
  | .addCopies f _ => frameOk f
  | .removeCopy f _ => frameOk f
  | .enrolPatron f _ => frameOk f
  | .amendPatron f _ => frameOk f
  | .removePatron f _ => frameOk f
  | .addWant f _ => frameOk f
  | .dropWant f _ => frameOk f
  | .restoration _ => true
  | .loansOutDecrease _ => true
  | .cancelLoan f _ => frameOk f
  | .declareLost f _ => frameOk f
  | .advanceDay f _ => frameOk f
  | .selectNow f _ => frameOk f
  | .selectionVisit => true
  | .formatRecords f _ => frameOk f
  | .picked f _ => frameOk f
  | .pickFailed f _ => frameOk f
  | .shelve f _ => frameOk f
  | .withdrawCopy f _ => frameOk f
  | .ejectBay f _ => frameOk f
  | .latchEjectPulseEnd _ => true
  | .containItem f _ => frameOk f
  | .pingStation f _ => frameOk f
  | .bagReplaced f _ => frameOk f
  | .routeOff f _ => frameOk f
  | .routeOn f _ => frameOk f
  | .rejectContainer f _ => frameOk f
  | .setParameter f _ => frameOk f
  | .titleQuery f => frameOk f
  | .patronQuery f => frameOk f
  | .loanQuery f => frameOk f
  | .channelQuery f => frameOk f
  | .stationQuery f => frameOk f
  | .binQuery f => frameOk f
  | .parameterQuery f => frameOk f
  | .delayedEntryStart _ => true
  | .delayedResultComplete _ code key => entryOk code key
  | .discardTimerExpiry _ code key => entryOk code key
  | .bayPresenceOn _ => true
  | .bayPresenceOff _ => true
  | .identityRecordReceived _ _ => true
  | .identifyStallExpiry _ => true
  | .eraseReadyRise _ => true
  | .eraseTimeLimitExpiry _ => true
  | .eraseRereadReceived _ _ => true
  | .eraseRereadStallExpiry _ => true
  | .rehomeTimerExpiry tag => tagOk tag
  | .lampChainSendEnd => true
  | .headerWriteEnd _ => true
  | .channelStoreReadComplete _ damaged => damaged.all blockOk
  | .imageBlockWriteEnd _ => true
  | .indexBlockWriteEnd _ => true
  | .verifyBlockReadEnd _ block => blockOk block
  | .writeTagEnd _ => true
  | .drainConfirmation _ => true
  | .cartridgeStallExpiry _ => true
  | .retryEraseEnd _ => true
  | .retryEraseLimitExpiry _ => true
  | .labelAnswer chars => answerOk chars
  | .gateAnswer chars => answerOk chars
  | .pingAnswer chars => answerOk chars
  | .answerTimeExpiry => true
  | .lineAnswerDiscarded _ => true
  | .broadcastQuietEnd => true
  | .closeTimerExpiry _ => true
  | .returnsPresenceRise => true
  | .returnsPresenceFall => true
  | .readTagAnswer _ => true
  | .tagReadTimerExpiry => true
  | .dwellTimerExpiry => true
  | .dropoutTimerExpiry => true
  | .clearTimerExpiry => true
  | .departureTimerExpiry => true
  | .exchangeEnd _ => true
  | .portResetLineRelease _ => true
  | .lineCommandEnd => true
  | .cartridgeReadyRise _ => true

end Sys2Proof
end

