-- ==== Sys2Proof/Safety.lean ====
section
/-! DEFINITION. The terms that claims about the part use: a port free to take a request at once, what a frame says, the
state in which a posted request has been taken, the bounds of the port queues, and the canonical forms. -/

namespace Sys2Proof.Machine

/-! ### Posted requests -/

/-- A frame says a posted request: it passes the first four checks of R170 and its key and payload spell the request. -/
def Spells (f : Frame) (q : PostedReq) : Prop :=
  frameCheck f q.code = none ∧ parsePosted q.code (frameKey f) f.payload = some q

/-- The part is READY and a port takes a request and applies it in the same event: its reset line is released, its
posted queue is empty, no overdue scan holds the CP queue (R63), and the write queue has room (R188). -/
def State.free (s : State) (p : Port) : Prop :=
  s.mode = .ready ∧ (s.port p).resetLine = false ∧ (s.port p).posted = [] ∧ (s.port p).applying = false ∧
    (p = .cp → s.scan = none) ∧ s.writeQueue.length < Config.maxUnits

/-- The exchange of a request answered ACCEPTED (R171). -/
def acceptedExchange : Exchange := { reply := .accepted, handOver := .none, ended := false }

/-- The state in which a posted request has been accepted into the empty queue of a port, handed over and
taken by its block (R171, R172). -/
def State.taking (p : Port) (q : PostedReq) (s : State) : State :=
  s.setPort p { s.port p with posted := [q], applying := true, handed := false, exchange := some acceptedExchange }

/-- The state of the port once a request accepted into its empty queue has been applied: the queue empty again, the
reply ACCEPTED, the posted marks that named the request cleared (R171, R172, R175). -/
def State.applied (p : Port) (s : State) : State :=
  s.setPort p
    { s.port p with
      posted := [], applying := false, handed := false, exchange := some acceptedExchange
      delayed := (s.port p).delayed.map (fun d => { d with mark := d.mark - 1 }) }

/-! ### Allocation and eviction (R5, R6) -/

/-- No free run is long enough for the extents needed, and no two are (R5). -/
def noRoom (need : Nat) (free : List Run) : Prop :=
  ∀ x ∈ free, x.count < need ∧ ∀ y ∈ free, y ≠ x → x.count + y.count < need

/-- A title that may be evicted: RESIDENT and pinned by no loan (R6). -/
def State.evictable (s : State) (n : Nat) (m : Bool) (k : CartTitle) : Prop :=
  s.title n = some { withdrawing := m, body := .cart k } ∧ k.state = .resident ∧ k.pins = 0

/-- The title evicted next: of those that may be, the one of the oldest last-use day, then of the lowest number (R6). -/
def State.evictedNext (s : State) (n : Nat) (m : Bool) (k : CartTitle) : Prop :=
  s.evictable n m k ∧
    ∀ x m' k', x ≠ n → s.evictable x m' k' → k.lastUse < k'.lastUse ∨ (k.lastUse = k'.lastUse ∧ n < x)

/-- A title evicted: its runs free, its record ABSENT and written, TITLE EVICTED sent with its last-use day and the number
of its extents (R6, R23). -/
def State.evicted (n : Nat) (m : Bool) (k : CartTitle) (s : State) : State :=
  ((s.freeRuns k).saveTitle n
    { withdrawing := m
      body := .cart
        { k with
          state := .absent, run1 := none, run2 := none, received := 0, stagingSum := .zero
          idleTimer := none } }).notify .cp
    (note .titleEvicted n [k.lastUse, ((k.run1.toList ++ k.run2.toList).map Run.count).sum])

/-- Titles are the ones evicted one after the other, the steps of R5 failing before each (R6). -/
def State.evictsInTurn (need : Nat) : List (Nat × Bool × CartTitle) → State → Prop
  | [], _ => True
  | (n, m, k) :: rest, s =>
    noRoom need s.freeMap ∧ s.evictedNext n m k ∧ State.evictsInTurn need rest (s.evicted n m k)

/-- The state once titles have been evicted one after the other. -/
def State.evictedInTurn : List (Nat × Bool × CartTitle) → State → State
  | [], s => s
  | (n, m, k) :: rest, s => State.evictedInTurn rest (s.evicted n m k)

/-- No job of the copy queue waits in a bay for a channel: each has a holder or no bay (R108, R109). -/
def State.noneReady (s : State) : Prop := ∀ j ∈ s.copyQueue, j.holder ≠ none ∨ j.bay = none

/-! ### Queue bounds (R171, R174, R178) -/

/-- No two entries of a delayed queue have the same request code and key (R174). -/
def distinctEntries (l : List Delayed) : Prop := l.Pairwise (fun d e => ¬(d.code = e.code ∧ d.key = e.key))

/-- A Port Unit within the bounds of its queues (R171, R174, R178). -/
def PortUnit.bounded (u : PortUnit) : Prop :=
  u.posted.length ≤ 32 ∧ u.delayed.length ≤ 8 ∧ distinctEntries u.delayed ∧ u.notices.length ≤ 64

/-- Both ports within the bounds of their queues. -/
def State.portsBounded (s : State) : Prop := s.cp.bounded ∧ s.fp.bounded

/-! ### Canonical forms -/

/-- The title store's content has its one canonical form. -/
def State.storeCanonical (s : State) : Prop := storeWf s.store = true

/-- Every keyed table of the part and of record memory has its keys in rising order, each once. -/
def State.tablesSorted (s : State) : Prop :=
  Table.sorted s.titles = true ∧ Table.sorted s.patrons = true ∧ Table.sorted s.loans = true ∧
    Table.sorted s.settings = true ∧ Table.sorted s.mem.titles = true ∧ Table.sorted s.mem.patrons = true ∧
    Table.sorted s.mem.loans = true ∧ Table.sorted s.mem.settings = true

end Sys2Proof.Machine
end

