-- ==== Sys2Proof/Certificates/Slice0/Obligations.lean ====
section
/-! DEFINITION. The statements for the provers. A statement about a posted request is about a port that is free
(`State.free`) and a frame that spells the request (`Spells`); the next state is written out, so that everything it does
not name is as before. In a request's command the operand `true` says that its application starts in the event that
accepts it, one of the orders R172 allows (log entry 5). -/

open Sys2Proof Sys2Proof.Machine

/-! ### Titles -/

/-- R2: a DEFINE TITLE is malformed for title number 0, for the faults of its own medium's fields, and for no fault of the
other's. Applied, it is refused DUPLICATE or TABLE_FULL, or creates an ABSENT cartridge title or an empty volume
title, written to record memory (R23), with no notice and no trigger. That the staging sum of the new title is 0 is the
model's choice (log entry 48). -/
def Obligations.DefineTitleApplied : Prop :=
  (∀ (key : Nat) (payload : List Byte),
    (natOfBytes (slice 0 1 payload) = 1 →
      (parsePosted .defineTitle key payload = none ↔
        key = 0 ∨ natOfBytes (slice 2 2 payload) = 0 ∨
          (natOfBytes (slice 1 1 payload) ≠ 1 ∧ natOfBytes (slice 1 1 payload) ≠ 2) ∨
          natOfBytes (slice 4 2 payload) = 65535 ∨ natOfBytes (slice 6 2 payload) = 65535)) ∧
    (natOfBytes (slice 0 1 payload) = 2 →
      (parsePosted .defineTitle key payload = none ↔
        key = 0 ∨ natOfBytes (slice 1 1 payload) < 1 ∨ 40 < natOfBytes (slice 1 1 payload)))) ∧
  (∀ (s : State) (f : Frame) (n : Nat) (d : TitleDef), f.port = .cp → s.free .cp → Spells f (.defineTitle n d) →
    exec (.defineTitle f true) s = .next (State.applied .cp
      (if (s.title n).isSome then s.notifyRefused .cp .defineTitle n .duplicate []
      else if 4096 ≤ s.titles.length then s.notifyRefused .cp .defineTitle n .tableFull []
      else s.saveTitle n
        { withdrawing := false
          body := match d with
            | .cart kind length declared => .cart
              { kind := kind, length := length, declared := declared, state := .absent, run1 := none, run2 := none,
                received := 0, stagingSum := .zero, pins := 0, lastUse := s.dayCount, idleTimer := none }
            | .vol location volumes => .vol
              { owned := 0, onShelf := 0, location := location, volumes := volumes } })))

/-- R5 to R7: STAGE BEGIN of an ABSENT title whose image needs `need` extents makes it STAGING with no block received and
starts its idle timer, in the first extents of the lowest free run that is long enough; else in the whole of the
longest free run, the lowest of equals, with the rest at the start of the lowest other run that is long enough; else
the RESIDENT unpinned title of the oldest last-use day, then lowest number, is evicted with TITLE EVICTED and the
steps tried again, as often as it takes; with no such title left it is refused STORE_FULL, the evictions standing. It is
refused UNKNOWN_TITLE, WRONG_STATE for a volume, STAGING, RESIDENT or RETIRING title, and PINNED for a DAMAGED title.
R188: where the evictions have filled the write queue, the rest waits (log entry 8). That the staging sum of an evicted
title is 0 is the model's choice (log entry 48). -/
def Obligations.StageBeginApplied : Prop :=
  ∀ (s : State) (f : Frame) (n : Nat), f.port = .cp → s.free .cp → Spells f (.stageBegin n) →
    (∀ (w : Bool) (c : CartTitle) (evs : List (Nat × Bool × CartTitle)),
      s.title n = some { withdrawing := w, body := .cart c } → c.state = .absent →
      let need := (c.length + 63) / 64
      (s.taking .cp (.stageBegin n)).evictsInTurn need evs → (evs = [] ∨ Table.sorted s.titles = true) →
      let t := (s.taking .cp (.stageBegin n)).evictedInTurn evs
      let staged (r1 : Run) (r2 : Option Run) : Host.Outcome State Fault Refusal :=
        .next (State.endPosted .cp
          (State.saveTitle n
            { withdrawing := w
              body := .cart
                { c with
                  state := .staging, run1 := some r1, run2 := r2, received := 0, stagingSum := .zero
                  idleTimer := some (s.now + s.stagingIdleTime) } }
            { t with
              freeMap := match r2 with
                | none => takeFree r1 t.freeMap
                | some r => takeFree r (takeFree r1 t.freeMap) }))
      (s.writeQueue.length + evs.length < 128 →
        (∀ r : Run, t.freeMap.find? (fun x => decide (need ≤ x.count)) = some r →
          exec (.stageBegin f true) s = staged { first := r.first, count := need } none) ∧
        (∀ (r1 r2 : Run) (front back : List Run), (∀ x ∈ t.freeMap, x.count < need) → t.freeMap = front ++ r1 :: back →
          (∀ x ∈ front, x.count < r1.count) → (∀ x ∈ back, x.count ≤ r1.count) →
          (t.freeMap.filter (fun x => x ≠ r1)).find? (fun x => decide (need - r1.count ≤ x.count)) = some r2 →
          exec (.stageBegin f true) s = staged r1 (some { first := r2.first, count := need - r1.count }))) ∧
      (s.writeQueue.length + evs.length ≤ 128 → Table.sorted s.titles = true → noRoom need t.freeMap →
        (∀ v m k, ¬t.evictable v m k) →
        exec (.stageBegin f true) s =
          .next (State.endPosted .cp (t.notifyRefused .cp .stageBegin n .storeFull []))) ∧
      (s.writeQueue.length + evs.length = 128 →
        (∃ x ∈ t.freeMap, need ≤ x.count) ∨ (noRoom need t.freeMap ∧ ∃ v m k, t.evictedNext v m k) →
        exec (.stageBegin f true) s = .next
          { t with waiting := s.waiting ++ [{ event := .postedApplicationStart .cp, awaited := .nothing }] })) ∧
    (s.title n = none →
      exec (.stageBegin f true) s =
        .next (State.applied .cp (s.notifyRefused .cp .stageBegin n .unknownTitle []))) ∧
    (∀ w v, s.title n = some { withdrawing := w, body := .vol v } →
      exec (.stageBegin f true) s =
        .next (State.applied .cp (s.notifyRefused .cp .stageBegin n .wrongState []))) ∧
    (∀ w c, s.title n = some { withdrawing := w, body := .cart c } → c.state ≠ .absent →
      exec (.stageBegin f true) s =
        .next (State.applied .cp
          (s.notifyRefused .cp .stageBegin n (if c.state = .damaged then .pinned else .wrongState) [])))

/-- R8, R9 and R12: a STAGE BLOCK with the index expected is summed, counted and handed to the staging writer for the store
block of R4, the idle timer restarted or stopped, and the request stays in application. On a busy store path the writer
waits for its grant; on a free one it is granted at once, with the search standing at it or no channel asking. With
another index it is refused BAD_BLOCK_INDEX with blocks received, an undefined title UNKNOWN_TITLE, a volume title and
one that is not STAGING WRONG_STATE, and nothing else changes. The completion comes later (log entry 16). -/
def Obligations.StageBlockApplied : Prop :=
  ∀ (s : State) (f : Frame) (n i : Nat) (bytes : List Byte), f.port = .cp → s.free .cp →
    Spells f (.stageBlock n i bytes) →
    let refused (why : Reason) (values : List Nat) : Host.Outcome State Fault Refusal :=
      .next (State.applied .cp (s.notifyRefused .cp .stageBlock n why values))
    (s.title n = none → exec (.stageBlock f true) s = refused .unknownTitle []) ∧
    (∀ w v, s.title n = some { withdrawing := w, body := .vol v } →
      exec (.stageBlock f true) s = refused .wrongState []) ∧
    (∀ w c, s.title n = some { withdrawing := w, body := .cart c } →
      (c.state ≠ .staging → exec (.stageBlock f true) s = refused .wrongState []) ∧
      (c.state = .staging → i ≠ c.received → exec (.stageBlock f true) s = refused .badBlockIndex [c.received]) ∧
      (c.state = .staging → i = c.received →
        let t : State :=
          { (s.taking .cp (.stageBlock n i bytes)).putTitle n
              { withdrawing := w
                body := .cart
                  { c with
                    received := c.received + 1
                    stagingSum := c.stagingSum.addBytes bytes
                    idleTimer := if c.received + 1 < c.length then some (s.now + s.stagingIdleTime) else none } } with
            stagingWriter := some
              { title := n, storeBlock := c.storeBlock c.received, bytes := bytes, transferred := false } }
        (s.grant ≠ none → exec (.stageBlock f true) s = .next t) ∧
        (s.grant = none →
          s.searchFrom = .staging ∨ (s.chanA.activity ≠ .storeRequest ∧ s.chanB.activity ≠ .storeRequest) →
          exec (.stageBlock f true) s = .next { t with grant := some .staging, searchFrom := .chanA })))

/-- R16 and R35: RETIRE TITLE of a title that is not RETIRING sets its withdrawing mark and starts the withdrawal walk at
slot 0; the request stays in application. An undefined title is refused UNKNOWN_TITLE, a RETIRING one WRONG_STATE. -/
def Obligations.RetireTitleApplied : Prop :=
  ∀ (s : State) (f : Frame) (n : Nat), f.port = .cp → s.free .cp → Spells f (.retireTitle n) →
    (s.title n = none →
      exec (.retireTitle f true) s =
        .next (State.applied .cp (s.notifyRefused .cp .retireTitle n .unknownTitle []))) ∧
    (∀ w c, s.title n = some { withdrawing := w, body := .cart c } → c.state = .retiring →
      exec (.retireTitle f true) s =
        .next (State.applied .cp (s.notifyRefused .cp .retireTitle n .wrongState []))) ∧
    (∀ t, s.title n = some t → (∀ c, t.body = .cart c → c.state ≠ .retiring) →
      exec (.retireTitle f true) s = .next
        { (s.taking .cp (.retireTitle n)).putTitle n { t with withdrawing := true } with
          walk := some { title := n, next := 0, changed := 0 } })

/-- R19: ADD COPIES. A count of 0 is malformed; an undefined title is refused UNKNOWN_TITLE, a cartridge title
WRONG_STATE, a total above 63 COPIES_LIMIT with copies owned; otherwise copies owned and on shelf each rise by the
count and a selection trigger is raised. The statement holds for every count the payload can spell: R19 gives the counts
1 to 63 and calls only 0 malformed, and that a count of 64 to 255 is accepted and then refused by the same rows is the
model's reading (log entry 37). -/
def Obligations.AddCopiesApplied : Prop :=
  (∀ key payload, natOfBytes (slice 0 1 payload) = 0 → parsePosted .addCopies key payload = none) ∧
  ∀ (s : State) (f : Frame) (n count : Nat), f.port = .cp → s.free .cp → Spells f (.addCopies n count) →
    exec (.addCopies f true) s = .next (State.applied .cp
      (match s.title n with
      | none => s.notifyRefused .cp .addCopies n .unknownTitle []
      | some { body := .cart _, .. } => s.notifyRefused .cp .addCopies n .wrongState []
      | some { withdrawing := w, body := .vol v } =>
        if 63 < v.owned + count then s.notifyRefused .cp .addCopies n .copiesLimit [v.owned]
        else (s.saveTitle n
          { withdrawing := w
            body := .vol { v with owned := v.owned + count, onShelf := v.onShelf + count } }).trigger))

/-- R20: REMOVE COPY. An undefined title is refused UNKNOWN_TITLE, a cartridge title WRONG_STATE, a title with no copy
NOT_FOUND, one with none on the shelf ON_LOAN; otherwise copies owned and on shelf each fall by 1. -/
def Obligations.RemoveCopyApplied : Prop :=
  ∀ (s : State) (f : Frame) (n : Nat), f.port = .cp → s.free .cp → Spells f (.removeCopy n) →
    exec (.removeCopy f true) s = .next (State.applied .cp
      (match s.title n with
      | none => s.notifyRefused .cp .removeCopy n .unknownTitle []
      | some { body := .cart _, .. } => s.notifyRefused .cp .removeCopy n .wrongState []
      | some { withdrawing := w, body := .vol v } =>
        if v.owned = 0 then s.notifyRefused .cp .removeCopy n .notFound []
        else if v.onShelf = 0 then s.notifyRefused .cp .removeCopy n .onLoan []
        else s.saveTitle n
          { withdrawing := w, body := .vol { v with owned := v.owned - 1, onShelf := v.onShelf - 1 } }))

/-! ### Patrons and want lists -/

/-- R26 (and R25, R195): ENROL PATRON is malformed for a patron number of 0 or above 9,999,999, a route code above 31
or a hold above 1, and for nothing else, so for no allowance; a malformed one is refused at its exchange with
MALFORMED. Applied, a number not enrolled gets its record in the lowest free slot, with an empty want list and no loan,
an allowance above 6 taken as 6; an enrolled number is refused DUPLICATE, a full table TABLE_FULL. -/
def Obligations.EnrolPatronApplied : Prop :=
  (∀ (key : Nat) (payload : List Byte), parsePosted .enrolPatron key payload = none ↔
    key = 0 ∨ 9999999 < key ∨ 31 < natOfBytes (slice 1 1 payload) ∨ 1 < natOfBytes (slice 2 1 payload)) ∧
  (∀ (s : State) (f : Frame) (atOnce : Bool), f.port = .cp → (s.port .cp).resetLine = false → f.payload.length = 3 →
    f.key.toNat = 0 ∨ 9999999 < f.key.toNat ∨ 31 < natOfBytes (slice 1 1 f.payload) ∨
        1 < natOfBytes (slice 2 1 f.payload) →
    exec (.enrolPatron f atOnce) s = .next (s.setPort .cp
      { s.port .cp with
        exchange := some { reply := .refused .malformed, handOver := .none, ended := false } })) ∧
  (∀ key payload number allowance r hold, parsePosted .enrolPatron key payload = some (.enrolPatron number allowance r hold) →
    number = key ∧ allowance = min 6 (natOfBytes (slice 0 1 payload)) ∧ r.val = natOfBytes (slice 1 1 payload) ∧
      (hold = true ↔ natOfBytes (slice 2 1 payload) = 1)) ∧
  (∀ (s : State) (f : Frame) (number allowance : Nat) (r : RouteNo) (hold : Bool), f.port = .cp → s.free .cp →
    Spells f (.enrolPatron number allowance r hold) →
    exec (.enrolPatron f true) s = .next (State.applied .cp
      (if (s.reader number).isSome then s.notifyRefused .cp .enrolPatron number .duplicate []
      else if 16384 ≤ Table.freeKey 0 s.patrons then s.notifyRefused .cp .enrolPatron number .tableFull []
      else s.savePatron (Table.freeKey 0 s.patrons)
        { number := number, allowance := allowance, loansOut := 0, returnsOpen := 0, route := r, hold := hold,
          wants := [] })))

/-- R27: AMEND PATRON sets allowance, route code and hold, and raises one trigger when it clears hold or raises the
allowance; an amendment that changes nothing changes no record; a number not enrolled is refused UNKNOWN_PATRON. -/
def Obligations.AmendPatronApplied : Prop :=
  ∀ (s : State) (f : Frame) (number allowance : Nat) (r : RouteNo) (hold : Bool), f.port = .cp → s.free .cp →
    Spells f (.amendPatron number allowance r hold) →
    (s.reader number = none →
      exec (.amendPatron f true) s =
        .next (State.applied .cp (s.notifyRefused .cp .amendPatron number .unknownPatron []))) ∧
    (∀ slot p, s.reader number = some (slot, p) →
      (p.allowance = allowance ∧ p.route = r ∧ p.hold = hold →
        exec (.amendPatron f true) s = .next (State.applied .cp s)) ∧
      (¬(p.allowance = allowance ∧ p.route = r ∧ p.hold = hold) →
        exec (.amendPatron f true) s = .next (State.applied .cp
          (let t := s.savePatron slot { p with allowance := allowance, route := r, hold := hold }
           if (p.hold = true ∧ hold = false) ∨ p.allowance < allowance then t.trigger else t))))

/-- R28: REMOVE PATRON frees the record and its slot when the reader has no live or returning loan; otherwise it is
refused LOANS_OUT with loans-out and returns open, and a number not enrolled UNKNOWN_PATRON. -/
def Obligations.RemovePatronApplied : Prop :=
  ∀ (s : State) (f : Frame) (number : Nat), f.port = .cp → s.free .cp → Spells f (.removePatron number) →
    exec (.removePatron f true) s = .next (State.applied .cp
      (match s.reader number with
      | none => s.notifyRefused .cp .removePatron number .unknownPatron []
      | some (slot, p) =>
        if p.loansOut = 0 ∧ p.returnsOpen = 0 then
          State.hand [.patron slot none] { s with patrons := Table.erase slot s.patrons }
        else s.notifyRefused .cp .removePatron number .loansOut [p.loansOut, p.returnsOpen]))

/-- R33: ADD WANT is malformed for a patron number or title number of 0 or out of range and for a position that is neither
FRONT nor END. Applied, the first of the table's rows that matches gives the outcome; an insertion, an appending and a
move to the front of a title not yet first raise a selection trigger. -/
def Obligations.AddWantApplied : Prop :=
  (∀ (key : Nat) (payload : List Byte), parsePosted .addWant key payload = none ↔
    key = 0 ∨ 9999999 < key ∨ natOfBytes (slice 0 3 payload) = 0 ∨
      (natOfBytes (slice 3 1 payload) ≠ 1 ∧ natOfBytes (slice 3 1 payload) ≠ 2)) ∧
  (∀ (s : State) (f : Frame) (number title : Nat) (front : Bool), f.port = .cp → s.free .cp →
    Spells f (.addWant number title front) →
    (s.reader number = none →
      exec (.addWant f true) s =
        .next (State.applied .cp (s.notifyRefused .cp .addWant number .unknownPatron []))) ∧
    (∀ slot p, s.reader number = some (slot, p) →
      (s.wantable title = false →
        exec (.addWant f true) s =
          .next (State.applied .cp (s.notifyRefused .cp .addWant number .unknownTitle []))) ∧
      (∀ tag, s.wantable title = true → s.liveLoanNaming number title = some tag →
        exec (.addWant f true) s =
          .next (State.applied .cp (s.notifyRefused .cp .addWant number .onLoan [tag]))) ∧
      (s.wantable title = true → s.liveLoanNaming number title = none →
        (title ∈ p.wants → front = false →
          exec (.addWant f true) s = .next (State.applied .cp
            (s.notifyRefused .cp .addWant number .duplicate [p.wants.findIdx (fun x => x == title) + 1]))) ∧
        (title ∈ p.wants → front = true → p.wants.head? = some title →
          exec (.addWant f true) s = .next (State.applied .cp s)) ∧
        (title ∈ p.wants → front = true → p.wants.head? ≠ some title →
          exec (.addWant f true) s = .next (State.applied .cp
            (s.savePatron slot { p with wants := title :: p.wants.filter (fun x => x != title) }).trigger)) ∧
        (title ∉ p.wants → 24 ≤ p.wants.length →
          exec (.addWant f true) s =
            .next (State.applied .cp (s.notifyRefused .cp .addWant number .listFull []))) ∧
        (title ∉ p.wants → p.wants.length < 24 →
          exec (.addWant f true) s = .next (State.applied .cp
            (s.savePatron slot
              { p with wants := if front then title :: p.wants else p.wants ++ [title] }).trigger)))))

/-- R34: DROP WANT. A patron not enrolled is refused UNKNOWN_PATRON; a title not in the list NOT_FOUND; otherwise the
entry is removed, the others keeping their order, and nothing else happens. -/
def Obligations.DropWantApplied : Prop :=
  ∀ (s : State) (f : Frame) (number title : Nat), f.port = .cp → s.free .cp → Spells f (.dropWant number title) →
    exec (.dropWant f true) s = .next (State.applied .cp
      (match s.reader number with
      | none => s.notifyRefused .cp .dropWant number .unknownPatron []
      | some (slot, p) =>
        if title ∈ p.wants then s.savePatron slot { p with wants := p.wants.filter (fun x => x != title) }
        else s.notifyRefused .cp .dropWant number .notFound []))

/-! ### Loans -/

/-- R55: CANCEL LOAN is refused UNKNOWN_LOAN, TOO_LATE or WRONG_STATE by the loan's state; a PLANNED or PICKED volume loan
closes, its set goes back on the shelf with RESHELVE to the FP, the loans-out decrease is handed over (log entry 6)
and CANCELLED goes to the CP. -/
def Obligations.CancelVolumeLoan : Prop :=
  ∀ (s : State) (f : Frame) (tag : Nat), f.port = .cp → s.free .cp → Spells f (.cancelLoan tag) →
    (s.loan tag = none →
      exec (.cancelLoan f true) s =
        .next (State.applied .cp (s.notifyRefused .cp .cancelLoan tag .unknownLoan []))) ∧
    (∀ l, s.loan tag = some l → l.state = .bagged →
      exec (.cancelLoan f true) s =
        .next (State.applied .cp (s.notifyRefused .cp .cancelLoan tag .tooLate []))) ∧
    (∀ l, s.loan tag = some l → l.state = .mailed ∨ l.state = .overdue ∨ l.state = .returning →
      exec (.cancelLoan f true) s =
        .next (State.applied .cp (s.notifyRefused .cp .cancelLoan tag .wrongState []))) ∧
    (∀ l w v, s.loan tag = some l → l.medium = .volume → l.state = .planned ∨ l.state = .picked →
      s.title l.firstTitle = some { withdrawing := w, body := .vol v } → s.noneReady →
      exec (.cancelLoan f true) s = .next (State.applied .cp
        (let t : Title := { withdrawing := w, body := .vol { v with onShelf := v.onShelf + 1 } }
         (((((s.putTitle l.firstTitle t).closeLoan tag [.title l.firstTitle (some t.kept)]).trigger).notify .fp
            (note .reshelve tag [l.firstTitle, v.location])).handDecrease l.patron).notify .cp
            (note .cancelled tag [l.patron, l.state.number]))))

/-- R55 and R126: CANCEL LOAN of a WRITTEN cartridge loan sends its bay to ERASING with the erase sent at once, as of a
PLANNED one, whose titles are unpinned and whose job, with a re-home timer that runs, leaves the queue; of a COPYING
loan it unpins the titles, takes the job from the queue, sends the bay to ERASING with erase started no, and tells the
channel to stop: with a command or a store read in progress the channel goes on to its end, and with a retry erase that
waits for ready as well; with a store request not granted, or another command that waits for ready, the channel
releases at once and the erase is sent (log entry 18). The loans-out decrease is handed over (log entry 6). An eject
pulse in progress ends as the bay enters ERASING (log entry 25), and the loan's unit goes before those of its titles
(log entry 40). -/
def Obligations.CancelCartridgeLoan : Prop :=
  ∀ (s : State) (f : Frame) (tag : Nat) (l : Loan), f.port = .cp → s.free .cp → Spells f (.cancelLoan tag) →
    s.loan tag = some l → l.medium = .cartridge → (∀ j ∈ s.copyQueue, j.tag = tag ∨ j.holder ≠ none ∨ j.bay = none) →
    let erased (b : BayNo) : Bay :=
      { s.bay b with
        state := .erasing, tag := none, eraseStarted := true
        command := some (.erase, s.now + s.eraseTimeLimit), ready := false, ejectPulse := none }
    let told (t : State) : State := (t.handDecrease l.patron).notify .cp (note .cancelled tag [l.patron, l.state.number])
    let unpinned := (((s.taking .cp (.cancelLoan tag)).closeLoan tag []).unpinAll l.titles).leaveQueue tag
    (∀ b, l.state = .written → l.bay = some b → s.lineHeld b = false → s.job tag = none →
      exec (.cancelLoan f true) s =
        .next (lampAfter s (State.applied .cp (told ((s.closeLoan tag []).setBay b (erased b)))))) ∧
    (l.state = .planned → s.writeQueue.length + l.titles.length < 128 →
      (∀ b, l.bay = some b → s.lineHeld b = false →
        exec (.cancelLoan f true) s =
          .next (lampAfter s (State.endPosted .cp (told (unpinned.setBay b (erased b)))))) ∧
      (l.bay = none → exec (.cancelLoan f true) s = .next (State.endPosted .cp (told unpinned)))) ∧
    (∀ b j c, l.state = .copying → l.bay = some b → s.writeQueue.length + l.titles.length < 128 →
      s.job tag = some j → j.holder = some c → (s.chan c).state ≠ .idle → (s.chan c).stopping = false →
      (s.chan c).bay = some b → (s.chan c).tag = some tag →
      ((∃ cmd limit, (s.chan c).activity = .commandSent cmd limit) ∨ (∃ ended, (s.chan c).activity = .storeRead ended) ∨
          (∃ limit, (s.chan c).activity = .commandDue .erase limit) →
        exec (.cancelLoan f true) s = .next (lampAfter s (State.endPosted .cp (told
          ((unpinned.setBay b
              { s.bay b with
                state := .erasing, tag := none, eraseStarted := false, command := none, ejectPulse := none }).setChan c
            { s.chan c with stopping := true, stopCause := some .cancel }))))) ∧
      ((s.chan c).activity = .storeRequest ∨
          (∃ cmd limit, cmd ≠ .erase ∧ (s.chan c).activity = .commandDue cmd limit) →
        (∀ d, d ≠ c → (s.chan d).bay ≠ some b) →
        exec (.cancelLoan f true) s = .next (lampAfter s (State.endPosted .cp (told
          ((unpinned.setBay b (erased b)).setChan c .cleared))))))

/-- R56: DECLARE LOST of a MAILED or OVERDUE loan closes it, a volume title losing one copy owned, with the loans-out
decrease handed over (log entry 6) and LOAN CLOSED (LOST) to the CP; it is refused UNKNOWN_LOAN or WRONG_STATE
otherwise. -/
def Obligations.DeclareLostApplied : Prop :=
  ∀ (s : State) (f : Frame) (tag : Nat), f.port = .cp → s.free .cp → Spells f (.declareLost tag) →
    (s.loan tag = none →
      exec (.declareLost f true) s =
        .next (State.applied .cp (s.notifyRefused .cp .declareLost tag .unknownLoan []))) ∧
    (∀ l, s.loan tag = some l → l.state ≠ .mailed → l.state ≠ .overdue →
      exec (.declareLost f true) s =
        .next (State.applied .cp (s.notifyRefused .cp .declareLost tag .wrongState []))) ∧
    (∀ l, s.loan tag = some l → l.state = .mailed ∨ l.state = .overdue → l.medium = .cartridge →
      exec (.declareLost f true) s = .next (State.applied .cp
        (((s.closeLoan tag []).handDecrease l.patron).notify .cp
          (noteFor .loanClosed tag .lost [l.patron, l.state.number])))) ∧
    (∀ l w v, s.loan tag = some l → l.state = .mailed ∨ l.state = .overdue → l.medium = .volume →
      s.title l.firstTitle = some { withdrawing := w, body := .vol v } →
      exec (.declareLost f true) s = .next (State.applied .cp
        (let t : Title := { withdrawing := w, body := .vol { v with owned := v.owned - 1 } }
         (((s.putTitle l.firstTitle t).closeLoan tag [.title l.firstTitle (some t.kept)]).handDecrease l.patron).notify
          .cp (noteFor .loanClosed tag .lost [l.patron, l.state.number]))))

/-- R48 and R49: PICKED makes a PLANNED volume loan PICKED. PICK FAILED closes it, takes one copy owned off its title,
hands the restoration of its title and sends LOAN CLOSED (PICK_FAILED) to the CP. Both are refused UNKNOWN_LOAN or
WRONG_STATE otherwise, WRONG_STATE with the loan's state (for PICK FAILED read from R49's 'in the cases of R48', log
entry 26). -/
def Obligations.PickedAndPickFailedApplied : Prop :=
  ∀ (s : State) (tag : Nat), s.free .fp →
    (∀ f, f.port = .fp → Spells f (.picked tag) →
      exec (.picked f true) s = .next (State.applied .fp
        (match s.loan tag with
        | none => s.notifyRefused .fp .picked tag .unknownLoan []
        | some l =>
          if l.medium = .volume ∧ l.state = .planned then s.saveLoan tag { l with state := .picked }
          else s.notifyRefused .fp .picked tag .wrongState [l.state.number]))) ∧
    (∀ f, f.port = .fp → Spells f (.pickFailed tag) →
      (s.loan tag = none →
        exec (.pickFailed f true) s =
          .next (State.applied .fp (s.notifyRefused .fp .pickFailed tag .unknownLoan []))) ∧
      (∀ l, s.loan tag = some l → ¬(l.medium = .volume ∧ l.state = .planned) →
        exec (.pickFailed f true) s =
          .next (State.applied .fp (s.notifyRefused .fp .pickFailed tag .wrongState [l.state.number]))) ∧
      (∀ l w v, s.loan tag = some l → l.medium = .volume → l.state = .planned →
        s.title l.firstTitle = some { withdrawing := w, body := .vol v } →
        exec (.pickFailed f true) s = .next (State.applied .fp
          (let t : Title := { withdrawing := w, body := .vol { v with owned := v.owned - 1 } }
           let u := (s.putTitle l.firstTitle t).closeLoan tag [.title l.firstTitle (some t.kept)]
           State.notify .cp (noteFor .loanClosed tag .pickFailed [l.patron, l.firstTitle])
             { u with
               restorations := u.restorations ++ [{ patron := l.patron, titles := l.titles.map PlanEntry.title }] }))))

/-- R54: SHELVE and WITHDRAW COPY of a RETURNING volume loan close it and lower the reader's returns open by 1; SHELVE
puts the set on the shelf with a selection trigger, WITHDRAW COPY takes it out of the copies owned. Both are refused
UNKNOWN_LOAN or WRONG_STATE otherwise. -/
def Obligations.ShelveAndWithdrawCopyApplied : Prop :=
  ∀ (s : State) (tag : Nat), s.free .fp →
    (∀ f, f.port = .fp → Spells f (.shelve tag) →
      (s.loan tag = none →
        exec (.shelve f true) s = .next (State.applied .fp (s.notifyRefused .fp .shelve tag .unknownLoan []))) ∧
      (∀ l, s.loan tag = some l → ¬(l.medium = .volume ∧ l.state = .returning) →
        exec (.shelve f true) s = .next (State.applied .fp (s.notifyRefused .fp .shelve tag .wrongState []))) ∧
      (∀ l w v, s.loan tag = some l → l.medium = .volume → l.state = .returning →
        s.title l.firstTitle = some { withdrawing := w, body := .vol v } →
        exec (.shelve f true) s = .next (State.applied .fp
          (let t : Title := { withdrawing := w, body := .vol { v with onShelf := v.onShelf + 1 } }
           ((((s.putTitle l.firstTitle t).closeLoan tag [.title l.firstTitle (some t.kept)]).lowerReturnsOpen
             l.patron).notify .cp (noteFor .loanClosed tag .shelved [l.patron, l.medium.number])).trigger)))) ∧
    (∀ f, f.port = .fp → Spells f (.withdrawCopy tag) →
      (s.loan tag = none →
        exec (.withdrawCopy f true) s =
          .next (State.applied .fp (s.notifyRefused .fp .withdrawCopy tag .unknownLoan []))) ∧
      (∀ l, s.loan tag = some l → ¬(l.medium = .volume ∧ l.state = .returning) →
        exec (.withdrawCopy f true) s =
          .next (State.applied .fp (s.notifyRefused .fp .withdrawCopy tag .wrongState []))) ∧
      (∀ l w v, s.loan tag = some l → l.medium = .volume → l.state = .returning →
        s.title l.firstTitle = some { withdrawing := w, body := .vol v } →
        exec (.withdrawCopy f true) s = .next (State.applied .fp
          (let t : Title := { withdrawing := w, body := .vol { v with owned := v.owned - 1 } }
           (((s.putTitle l.firstTitle t).closeLoan tag [.title l.firstTitle (some t.kept)]).lowerReturnsOpen
             l.patron).notify .cp (noteFor .loanClosed tag .withdrawn [l.patron, l.firstTitle])))))

/-! ### Selection, formatting, settings -/

/-- R66: SELECT NOW raises one selection trigger in every engine state (R65) and sends no notice; on the FP it is refused
WRONG_PORT at its exchange. -/
def Obligations.SelectNowTriggers : Prop :=
  (∀ (s : State) (f : Frame), f.port = .cp → s.free .cp → Spells f .selectNow →
    exec (.selectNow f true) s = .next (State.applied .cp
      { s with
        engine :=
          if s.engine.passing then { s.engine with again := true }
          else
            { s.engine with
              passing := true, again := false, endedFull := false, shipments := 0
              start := if s.engine.cursor + 1 < 16384 then s.engine.cursor + 1 else 0
              next := some (if s.engine.cursor + 1 < 16384 then s.engine.cursor + 1 else 0) } })) ∧
  ∀ (s : State) (f : Frame) (atOnce : Bool), f.port = .fp → (s.port .fp).resetLine = false → f.payload = [] →
    exec (.selectNow f atOnce) s = .next (s.setPort .fp
      { s.port .fp with exchange := some { reply := .refused .wrongPort, handOver := .none, ended := false } })

/-- R191 and R192: FORMAT RECORDS in READY with no loan empties the directory, the reader slots, the bins and the
settings, sets tag counter and day, stops the engine, drops the waiting line jobs and hands the three writes, each a
unit of its own (log entry 9); with a loan it is refused LOANS_OUT. In UNFORMATTED it hands the writes and stays in
application, without the erasure where the mark already tests absent (log entry 35). Decreases and restorations not
yet taken are dropped (log entry 38). R64 gives the stopped engine IDLE, cursor 0 and again-flag no; the other fields of
`Engine.idle` (start slot 0, next slot none, shipments 0, ended full no) are the model's choice (log entry 41). -/
def Obligations.FormatRecordsApplied : Prop :=
  (∀ (s : State) (f : Frame), f.port = .cp → s.free .cp → Spells f .formatRecords →
    (s.loans ≠ [] →
      exec (.formatRecords f true) s =
        .next (State.applied .cp (s.notifyRefused .cp .formatRecords 0 .loansOut [s.loans.length]))) ∧
    (s.loans = [] → s.writeQueue.length ≤ 125 →
      exec (.formatRecords f true) s = .next (State.applied .cp
        (State.hand [.mark formatMark] (State.hand [.formatTables] (State.hand [.mark (List.replicate 7 0xFF)]
          (State.buildStations
            { s with
              titles := [], freeMap := [{ first := 0, count := 65536 }], patrons := [], decreases := []
              restorations := [], settings := [], nextTag := 1
              dayCount := 0, engine := .idle, bins := Vector.replicate 32 .fresh
              lineJobs := s.lineJobs.take 1 }))))))) ∧
  ∀ (s : State) (f : Frame), f.port = .cp → Spells f .formatRecords → s.mode = .unformatted →
    (s.port .cp).resetLine = false → (s.port .cp).posted = [] → (s.port .cp).applying = false → s.scan = none →
    s.writeQueue.length ≤ 125 →
    let t : State := { s.taking .cp .formatRecords with startup := .formatting }
    (testMark s.mem.mark = .absent →
      exec (.formatRecords f true) s = .next (State.hand [.mark formatMark] (State.hand [.formatTables] t))) ∧
    (testMark s.mem.mark ≠ .absent →
      exec (.formatRecords f true) s = .next
        (State.hand [.mark formatMark] (State.hand [.formatTables] (State.hand [.mark (List.replicate 7 0xFF)] t))))

/-- R193, with R133, R145 and R147: SET PARAMETER keeps the value clamped to the range and writes it as one unit. A
value already held is written again and changes nothing else, not even a close timer (log entry 24); a station setting
updates the station table; a trigger level that an OPEN bin has reached releases it in the same unit; a close timeout
restarts or stops the timer of an OPEN bin that holds loans. -/
def Obligations.SetParameterApplied : Prop :=
  ∀ (s : State) (f : Frame) (n v : Nat) (row : Param), s.free f.port → Spells f (.setParameter n v) →
    paramOf n = some row → Table.sorted s.settings = true →
    let value := if v < row.low then row.low else if row.high < v then row.high else v
    let t := { s with settings := writeSetting n value s.settings }
    let u : WriteUnit := [.setting n value]
    (value = s.setting n → exec (.setParameter f true) s = .next (State.applied f.port (s.hand u))) ∧
    (value ≠ s.setting n →
      (n < 128 → n ≠ 44 → exec (.setParameter f true) s = .next (State.applied f.port (t.hand u))) ∧
      (n = 44 → exec (.setParameter f true) s = .next (State.applied f.port (t.hand u).updateStations)) ∧
      (∀ r : RouteNo, n = 128 + 4 * r.val →
        exec (.setParameter f true) s = .next (State.applied f.port (t.hand u).updateStations)) ∧
      (∀ r : RouteNo, n = 129 + 4 * r.val →
        exec (.setParameter f true) s = .next (State.applied f.port (t.hand u))) ∧
      (∀ r : RouteNo, n = 130 + 4 * r.val →
        exec (.setParameter f true) s = .next (State.applied f.port
          (if (s.bin r).state = .open ∧ value ≤ (s.bin r).list.length then t.releaseBin r u else t.hand u))) ∧
      (∀ r : RouteNo, n = 131 + 4 * r.val →
        exec (.setParameter f true) s = .next (State.applied f.port
          (if (s.bin r).state = .open ∧ (s.bin r).list ≠ [] then
            (t.hand u).setBin r
              { s.bin r with closeTimer := if value = 0 then none else some (s.now + 1000 * value) }
          else t.hand u))))

/-! ### Floor requests: bays, line, bins, returns -/

/-- R106: EJECT BAY pulses the latch of a BLANK, WRITTEN or REJECTED bay for 200 ms, a BLANK bay leaving the pool by
release pending; it is refused RESERVED with the loan tag, BUSY or WRONG_STATE in the other states. -/
def Obligations.EjectBayApplied : Prop :=
  ∀ (s : State) (f : Frame) (b : BayNo), f.port = .fp → s.free .fp → Spells f (.ejectBay b) →
    ((s.bay b).state = .blank ∨ (s.bay b).state = .written ∨ (s.bay b).state = .rejected →
      exec (.ejectBay f true) s = .next (State.applied .fp (s.setBay b
        { s.bay b with
          ejectPulse := some (s.now + 200)
          releasePending := (s.bay b).releasePending || (s.bay b).state == .blank }))) ∧
    (∀ tag, (s.bay b).state = .reserved → (s.bay b).tag = some tag →
      exec (.ejectBay f true) s =
        .next (State.applied .fp (s.notifyRefused .fp .ejectBay b.val .reserved [tag]))) ∧
    ((s.bay b).state = .identifying ∨ (s.bay b).state = .writing ∨ (s.bay b).state = .verifying ∨
        (s.bay b).state = .tagging ∨ (s.bay b).state = .erasing →
      exec (.ejectBay f true) s = .next (State.applied .fp (s.notifyRefused .fp .ejectBay b.val .busy []))) ∧
    ((s.bay b).state = .empty →
      exec (.ejectBay f true) s = .next (State.applied .fp (s.notifyRefused .fp .ejectBay b.val .wrongState [])))

/-- R138 to R140: CONTAIN ITEM of a WRITTEN or PICKED loan joins the line job queue; alone in it, with the bin of the
reader's route OPEN and the label station not OFFLINE, its LABEL goes out at once. It is refused UNKNOWN_LOAN,
WRONG_STATE with the state, DUPLICATE or LINE_BUSY, the first that applies; a job that starts at once and finds the bin
not OPEN, or the label station OFFLINE, ends refused with nothing sent. R135: PING STATION is refused LINE_BUSY at
16 jobs, else joins the queue; alone in it, its PING goes out at once whatever the station's state. -/
def Obligations.ContainItemAndPingApplied : Prop :=
  (∀ (s : State) (f : Frame) (tag : Nat), f.port = .fp → s.free .fp → Spells f (.containItem tag) →
    (s.loan tag = none →
      exec (.containItem f true) s =
        .next (State.applied .fp (s.notifyRefused .fp .containItem tag .unknownLoan []))) ∧
    (∀ l, s.loan tag = some l → l.state ≠ .written → l.state ≠ .picked →
      exec (.containItem f true) s =
        .next (State.applied .fp (s.notifyRefused .fp .containItem tag .wrongState [l.state.number]))) ∧
    (∀ l, s.loan tag = some l → l.state = .written ∨ l.state = .picked →
      ((∃ j ∈ s.lineJobs, j.kind = .contain tag) →
        exec (.containItem f true) s =
          .next (State.applied .fp (s.notifyRefused .fp .containItem tag .duplicate []))) ∧
      ((∀ j ∈ s.lineJobs, j.kind ≠ .contain tag) → 16 ≤ s.lineJobs.length →
        exec (.containItem f true) s =
          .next (State.applied .fp (s.notifyRefused .fp .containItem tag .lineBusy []))) ∧
      ((∀ j ∈ s.lineJobs, j.kind ≠ .contain tag) → s.lineJobs.length < 16 → s.lineCmd ≠ none →
        exec (.containItem f true) s = .next (State.applied .fp
          { s with lineJobs := s.lineJobs ++ [{ kind := .contain tag, route := none, stage := .waiting }] })) ∧
      (∀ slot p, s.lineJobs = [] → s.lineCmd = none → s.reader l.patron = some (slot, p) →
        (s.bin p.route).state = .open → s.station s.labelStation ≠ .offline →
        exec (.containItem f true) s = .next (State.applied .fp
          { s with
            lineJobs := [{ kind := .contain tag, route := some p.route, stage := .label }]
            lineCmd := some
              { command := .label, station := s.labelStation
                chars := lineChars s.labelStation .label
                  (labelData tag l.patron p.route l.medium (s.itemCount l) l.period)
                sent := 1, retries := none, phase := .sending } })) ∧
      (∀ slot p, s.lineJobs = [] → s.lineCmd = none → s.reader l.patron = some (slot, p) →
        ((s.bin p.route).state ≠ .open →
          exec (.containItem f true) s = .next (State.applied .fp
            (s.notifyRefused .fp .containItem tag .binClosed [p.route.val, (s.bin p.route).state.number]))) ∧
        ((s.bin p.route).state = .open → s.station s.labelStation = .offline →
          exec (.containItem f true) s = .next (State.applied .fp
            (s.notifyRefused .fp .containItem tag .stationOffline [s.labelStation])))))) ∧
  (∀ (s : State) (f : Frame) (a : Nat), f.port = .fp → s.free .fp → Spells f (.pingStation a) →
    (16 ≤ s.lineJobs.length →
      exec (.pingStation f true) s =
        .next (State.applied .fp (s.notifyRefused .fp .pingStation a .lineBusy []))) ∧
    (s.lineJobs.length < 16 → s.lineCmd ≠ none →
      exec (.pingStation f true) s = .next (State.applied .fp
        { s with lineJobs := s.lineJobs ++ [{ kind := .ping a, route := none, stage := .waiting }] })) ∧
    (s.lineJobs = [] → s.lineCmd = none →
      exec (.pingStation f true) s = .next (State.applied .fp
        { s with
          lineJobs := [{ kind := .ping a, route := none, stage := .ping }]
          lineCmd := some
            { command := .ping, station := a, chars := lineChars a .ping [], sent := 1, retries := none
              phase := .sending } })))

/-- R148: BAG REPLACED of a CLOSED bin makes it OPEN with an empty list; an OPEN or OFF bin refuses it WRONG_STATE with
its state, and a route above 31 is malformed. -/
def Obligations.BagReplacedApplied : Prop :=
  (∀ key payload, 31 < key → parsePosted .bagReplaced key payload = none) ∧
  ∀ (s : State) (f : Frame) (r : RouteNo), f.port = .fp → s.free .fp → Spells f (.bagReplaced r) →
    exec (.bagReplaced f true) s = .next (State.applied .fp
      (if (s.bin r).state = .closed then s.saveBin r { state := .open, list := [], closeTimer := none }
      else s.notifyRefused .fp .bagReplaced r.val .wrongState [(s.bin r).state.number]))

/-- R149: ROUTE OFF of a bin that holds loans is refused NOT_EMPTY with their number, of an OFF bin WRONG_STATE; an empty
OPEN or CLOSED bin becomes OFF. ROUTE ON makes an OFF bin OPEN and is refused WRONG_STATE otherwise. -/
def Obligations.RouteOffAndOnApplied : Prop :=
  ∀ (s : State) (r : RouteNo), s.free .fp →
    (∀ f, f.port = .fp → Spells f (.routeOff r) →
      exec (.routeOff f true) s = .next (State.applied .fp
        (if (s.bin r).list ≠ [] then s.notifyRefused .fp .routeOff r.val .notEmpty [(s.bin r).list.length]
        else if (s.bin r).state = .off then s.notifyRefused .fp .routeOff r.val .wrongState []
        else s.saveBin r { state := .off, list := [], closeTimer := none }))) ∧
    (∀ f, f.port = .fp → Spells f (.routeOn r) →
      exec (.routeOn f true) s = .next (State.applied .fp
        (if (s.bin r).state = .off then s.saveBin r { state := .open, list := [], closeTimer := none }
        else s.notifyRefused .fp .routeOn r.val .wrongState [])))

/-- R165 and R166: REJECT CONTAINER in SENSED, TAG_READ or SETTLED fails the recognition: IDLE, every timer stopped, no
read outstanding, tag and patron number cleared, RETURN UNREAD (REJECTED) to the FP. In IDLE it is refused
WRONG_STATE. The counts of the ended recognition are kept until the next one (log entry 31). -/
def Obligations.RejectContainerApplied : Prop :=
  ∀ (s : State) (f : Frame), f.port = .fp → s.free .fp → Spells f .rejectContainer →
    (s.recog.stage = .sensed ∨ s.recog.stage = .tagRead ∨ s.recog.stage = .settled →
      exec (.rejectContainer f true) s = .next (State.applied .fp (State.notify .fp
        (noteFor .returnUnread
          (match s.recog.tag with
          | some tag => if 1 ≤ tag ∧ tag ≤ 1048575 then tag else 0
          | none => 0)
          .rejected [s.recog.stage.number, s.recog.gapCount, s.recog.longestGap])
        { s with
          recog :=
            { s.recog with
              stage := .idle, tag := none, patron := none, readOutstanding := false, tagReadTimer := none
              dwellTimer := none, dropoutTimer := none, clearTimer := none, departureTimer := none } }))) ∧
    (s.recog.stage = .idle →
      exec (.rejectContainer f true) s =
        .next (State.applied .fp (s.notifyRefused .fp .rejectContainer 0 .wrongState [])))

/-! ### Exchanges, notices and the port queues -/

/-- R169: a selection that ends early or at its end leaves no exchange. R195 and R170: a malformed header is answered
REFUSED MALFORMED, an unlisted code REFUSED UNKNOWN_CODE. Nothing else changes. A request taken while another exchange
is open takes its place (log entry 14). R195 and R182: before a request is taken, and after its reply, a port shifts
out bytes of 0x00; with its reset line low it drives nothing (what the bytes before are: log entry 33). -/
def Obligations.ExchangeEvents : Prop :=
  (∀ (s : State) (p : Port),
    exec (.exchangeVoid p) s = .next (s.setPort p { s.port p with exchange := none }) ∧
    exec (.exchangeEnd p) s = .next (s.setPort p { s.port p with exchange := none })) ∧
  (∀ (s : State) (p : Port) (header : List Byte), (s.port p).resetLine = false → headerMalformed header = true →
    exec (.malformedHeader p header) s = .next (s.setPort p
      { s.port p with exchange := some { reply := .refused .malformed, handOver := .none, ended := false } })) ∧
  (∀ (s : State) (f : Frame) (code : Byte), (s.port f.port).resetLine = false → codeOf code.toNat = none →
    exec (.unknownRequestCode f code) s = .next (s.setPort f.port
      { s.port f.port with
        exchange := some { reply := .refused .unknownCode, handOver := .none, ended := false } })) ∧
  (∀ (u : PortUnit) (n : Nat),
    (u.resetLine = true → u.dataOut n = none) ∧
    (u.resetLine = false → u.exchange = none → u.dataOut n = some 0) ∧
    (∀ x, u.resetLine = false → u.exchange = some x →
      (∀ h : n < x.reply.bytes.length, u.dataOut n = some x.reply.bytes[n]) ∧
      (x.reply.bytes.length ≤ n → u.dataOut n = some 0)))

/-- R170 and R186: the checks at the exchange, for every request. A wrong payload length gives MALFORMED, a wrong port
WRONG_PORT; then, for a posted or delayed request that its own malformed check passes, STARTING gives BUSY and
UNFORMATTED NOT_FORMATTED except for FORMAT RECORDS. Only the exchange changes. -/
def Obligations.RefusedAtTheExchange : Prop :=
  ∀ (s : State) (f : Frame) (code : ReqCode) (atOnce : Bool), (s.port f.port).resetLine = false →
    let answered (r : Reply) : Host.Outcome State Fault Refusal :=
      .next (s.setPort f.port
        { s.port f.port with exchange := some { reply := r, handOver := .none, ended := false } })
    (f.payload.length ≠ payloadLength code →
      exec (requestCommand f atOnce code) s = answered (.refused .malformed)) ∧
    (f.payload.length = payloadLength code → takenOn code f.key.toNat f.port = false →
      exec (requestCommand f atOnce code) s = answered (.refused .wrongPort)) ∧
    (f.payload.length = payloadLength code → takenOn code f.key.toNat f.port = true →
      (requestClass code = .posted → parsePosted code f.key.toNat f.payload = none →
        exec (requestCommand f atOnce code) s = answered (.refused .malformed)) ∧
      (requestClass code = .delayed → queryKeyOk code f.key.toNat = false →
        exec (requestCommand f atOnce code) s = answered (.refused .malformed)) ∧
      ((requestClass code = .posted ∧ (parsePosted code f.key.toNat f.payload).isSome = true) ∨
          (requestClass code = .delayed ∧ queryKeyOk code f.key.toNat = true) →
        (s.mode = .starting → exec (requestCommand f atOnce code) s = answered .busy) ∧
        (s.mode = .unformatted → code ≠ .formatRecords →
          exec (requestCommand f atOnce code) s = answered (.refused .notFormatted))))

/-- R171 and R172: a posted request that passes the checks while READY is appended with ACCEPTED below 32 requests and
answered BUSY at 32. When a request's application ends, the request leaves the queue and the next is handed over at once.
When the block takes a head so handed over, and when the head of a queue with none in application is handed over and
taken, is open: in the event that accepts the head, or at a POSTED_APPLICATION_START (log entry 5). That one has no
effect with an empty queue, with a head its block has taken (log entry 4), or while an overdue scan holds the CP queue
(R63). R188: an application whose units the write queue has no place for is held back, its request staying in application
(log entry 8). -/
def Obligations.PostedQueue : Prop :=
  (∀ (s : State) (f : Frame) (q : PostedReq) (atOnce : Bool), Spells f q → s.mode = .ready →
    (s.port f.port).resetLine = false →
    let u := s.port f.port
    (u.posted.length < 32 → atOnce = false ∨ u.posted ≠ [] ∨ (u.applying = false ∧ f.port = .cp ∧ s.scan ≠ none) →
      exec (requestCommand f atOnce q.code) s = .next (s.setPort f.port
        { u with
          posted := u.posted ++ [q], exchange := some { reply := .accepted, handOver := .none, ended := false } })) ∧
    (32 ≤ u.posted.length →
      exec (requestCommand f atOnce q.code) s = .next (s.setPort f.port
        { u with exchange := some { reply := .busy, handOver := .none, ended := false } }))) ∧
  (∀ (s : State) (p : Port),
    ((s.port p).applying = true ∧ (s.port p).handed = false) ∨
      ((s.port p).applying = false ∧ ((s.port p).posted = [] ∨ (p = .cp ∧ s.scan ≠ none))) →
    exec (.postedApplicationStart p) s = .next s) ∧
  (∀ (s : State) (p : Port) (q : PostedReq) (rest : List PostedReq), (s.port p).posted = q :: rest →
    ((s.port p).applying = true ∧ (s.port p).handed = true) ∨
      ((s.port p).applying = false ∧ (p = .cp → s.scan = none)) →
    let t := s.setPort p { s.port p with applying := true, handed := false }
    ((applyPosted p q t).writeQueue.length ≤ 128 →
      exec (.postedApplicationStart p) s = .next (lampAfter s (applyPosted p q t))) ∧
    (s.writeQueue.length < (applyPosted p q t).writeQueue.length → 128 < (applyPosted p q t).writeQueue.length →
      exec (.postedApplicationStart p) s = .next
        { t with waiting := s.waiting ++ [{ event := .postedApplicationStart p, awaited := .nothing }] })) ∧
  (∀ (s : State) (rest : List PostedReq), s.cp.posted = .selectNow :: rest →
    (s.cp.applying = true ∧ s.cp.handed = true) ∨ (s.cp.applying = false ∧ s.scan = none) →
    exec (.postedApplicationStart .cp) s = .next (s.trigger.setPort .cp
      { s.cp with
        posted := rest, applying := !rest.isEmpty, handed := !rest.isEmpty
        delayed := s.cp.delayed.map (fun d => { d with mark := d.mark - 1 }) }))

/-- R174, for TITLE QUERY, PATRON QUERY, LOAN QUERY, CHANNEL QUERY, STATION QUERY, BIN QUERY and PARAMETER QUERY: a
COMPLETE entry of the same code and key is answered DONE with its result, the entry freed at the reply's end; a
WAITING or EXECUTING one RETRY; with none, a new WAITING entry with its posted mark and RETRY below 8 entries, and
BUSY at 8. -/
def Obligations.QueryPresented : Prop :=
  ∀ (s : State) (f : Frame) (code : ReqCode) (atOnce : Bool), requestClass code = .delayed →
    (s.port f.port).resetLine = false → f.payload = [] → queryKeyOk code f.key.toNat = true → s.mode = .ready →
    let u := s.port f.port
    let found := u.delayed.find? (fun d => d.code == code && d.key == f.key.toNat)
    let answered (u : PortUnit) (r : Reply) (h : HandOver) : Host.Outcome State Fault Refusal :=
      .next (s.setPort f.port { u with exchange := some { reply := r, handOver := h, ended := false } })
    (∀ d r limit, found = some d → d.condition = .complete r limit →
      exec (requestCommand f atOnce code) s = answered u (.doneQuery r) (.entry code f.key.toNat)) ∧
    (∀ d, found = some d → d.condition = .waiting →
      exec (requestCommand f atOnce code) s = answered u .retry .none) ∧
    (∀ d r, found = some d → d.condition = .executing r →
      exec (requestCommand f atOnce code) s = answered u .retry .none) ∧
    (found = none → u.delayed.length < 8 →
      exec (requestCommand f atOnce code) s = answered
        { u with
          delayed := u.delayed ++
            [{ code := code, key := f.key.toNat, condition := .waiting, mark := u.posted.length }] }
        .retry .none) ∧
    (found = none → 8 ≤ u.delayed.length →
      exec (requestCommand f atOnce code) s = answered u .busy .none)

/-- R175 and R176: the first entry of a delayed queue that has not started becomes EXECUTING once its posted mark is
clear, with the result taken from the records as they stand; with its mark set it waits. R22, R38 and R61: a title, a
reader or a loan query gives the record as it stands, NOT_FOUND without one. R129: a channel query the channel's state and
context, in IDLE none or 0 but the state, elsewhere the context as held (what it holds where R129 names no value: log
entries 20, 53 and 54). R136: a station query the state, whether it is the label station, and in rising
order the routes it gates. R150: a bin query the bin with its settings, its timer in whole seconds rounded up, and the
state of its gate station. R194: a parameter query the value held, the range, the default and the owning port. An event
that cannot bear on the state has no effect (the model's choice, log entry 4). -/
def Obligations.DelayedEntryStarts : Prop :=
  (∀ (s : State) (p : Port) (front rest : List Delayed) (d : Delayed), (s.port p).delayed = front ++ d :: rest →
    (∀ e ∈ front, e.condition ≠ .waiting) → d.condition = .waiting →
    (d.mark = 0 →
      exec (.delayedEntryStart p) s = .next (s.setPort p
        { s.port p with
          delayed := front ++ { d with condition := .executing (s.answer d.code d.key) } :: rest })) ∧
    (d.mark ≠ 0 → exec (.delayedEntryStart p) s = .next s)) ∧
  ∀ (s : State) (key : Nat),
    (∀ t, s.title key = some t → s.answer .titleQuery key = .title t) ∧
    (s.title key = none → s.answer .titleQuery key = .notFound) ∧
    (∀ slot p, s.reader key = some (slot, p) → s.answer .patronQuery key = .patron slot p) ∧
    (s.reader key = none → s.answer .patronQuery key = .notFound) ∧
    (∀ l, s.loan key = some l → s.answer .loanQuery key = .loan key l) ∧
    (s.loan key = none → s.answer .loanQuery key = .notFound) ∧
    (∀ c, key = (match c with | .a => 0 | .b => 1) →
      let x := s.chan c
      (x = .cleared → s.answer .channelQuery key = .channel
        { state := .idle, stopping := false, stopCause := none, tag := none, bay := none, index := 0, title := none
          setInUse := 0, first := 0, last := 0, now := 0, count1 := 0, count2 := 0, block := 0, attempts := 0 }) ∧
      (x.state ≠ .idle → s.answer .channelQuery key = .channel
        { state := x.state, stopping := x.stopping, stopCause := x.stopCause, tag := x.tag, bay := x.bay
          index := x.index
          title := if x.state = .header ∨ x.state = .image ∨ x.state = .verify then
              if x.index = 0 then none else x.titles[x.index - 1]?.map PlanEntry.title
            else none
          setInUse := if x.second then 2 else 1
          first := if x.second then x.set2.first else x.set1.first
          last := if x.second then x.set2.last else x.set1.last
          now := if x.second then x.set2.now else x.set1.now
          count1 := x.set1.count, count2 := x.set2.count, block := x.block, attempts := x.attempts })) ∧
    (∃ routes : List Nat, routes.Pairwise (fun x y => x < y) ∧
      (∀ r, r ∈ routes ↔ r < 32 ∧ s.setting (128 + 4 * r) = key) ∧
      s.answer .stationQuery key = .station (s.station key) (decide (s.setting 44 = key)) routes) ∧
    (∀ r : RouteNo, key = r.val → s.answer .binQuery key = .bin
      { state := (s.bin r).state, list := (s.bin r).list
        triggerLevel := s.setting (130 + 4 * r.val), closeTimeout := s.setting (131 + 4 * r.val)
        timerLeft := (s.bin r).closeTimer.map (fun limit => (limit - s.now + 999) / 1000)
        gateStation := s.setting (128 + 4 * r.val), gateOutput := s.setting (129 + 4 * r.val)
        stationState := s.station (s.setting (128 + 4 * r.val)) }) ∧
    (∀ row, paramOf key = some row →
      s.answer .parameterQuery key = .parameter
        (match Table.find key s.settings with
        | some v => v
        | none => row.default) row.low row.high row.default row.port)

/-- R176 and R177: an EXECUTING entry whose result has been carried back is COMPLETE, its discard timer running for the
port's discard time; at the expiry a COMPLETE entry is freed and RESULT DISCARDED goes to its port. That an expiry does
so also while the entry's own DONE reply is being shifted out is the model's reading (log entry 44). An expiry moves
the clock to its deadline (the model's choice, log entry 3). -/
def Obligations.DelayedResults : Prop :=
  ∀ (s : State) (p : Port) (front rest : List Delayed) (d : Delayed), (s.port p).delayed = front ++ d :: rest →
    (∀ e ∈ front ++ rest, ¬(e.code = d.code ∧ e.key = d.key)) →
    (∀ r, d.condition = .executing r →
      exec (.delayedResultComplete p d.code d.key) s = .next (s.setPort p
        { s.port p with
          delayed := front ++ { d with condition := .complete r (s.now + s.discardTime p) } :: rest })) ∧
    (∀ r limit, d.condition = .complete r limit →
      exec (.discardTimerExpiry p d.code d.key) s = .next (State.notify p
        (note .resultDiscarded d.key [codeNumber d.code])
        ({ s with now := max s.now limit }.setPort p { s.port p with delayed := front ++ rest })))

/-- R169 and R180: TAKE NOTICE answers with the head of the notice queue, the overflow mark and what remains, and leaves
them; the end of the reply takes the notice given off the queue and clears the mark, a waiting overdue scan resuming
(R60). The end of a DONE reply frees its COMPLETE entry; the end of any other reply hands nothing over. -/
def Obligations.TakeNoticeAndReplyEnd : Prop :=
  (∀ (s : State) (f : Frame), (s.port f.port).resetLine = false → f.payload = [] →
    exec (.takeNotice f) s = .next (s.setPort f.port
      { s.port f.port with
        exchange := some
          { reply := .doneNotice (s.port f.port).notices.head? (s.port f.port).overflow
              ((s.port f.port).notices.length - 1)
            handOver := .notice (!(s.port f.port).notices.isEmpty), ended := false } })) ∧
  (∀ (s : State) (p : Port) (x : Exchange), (s.port p).exchange = some x → x.ended = false →
    (x.handOver = .notice true →
      exec (.replyEnd p) s = .next (State.setPort p
        { s.port p with
          notices := (s.port p).notices.tail, overflow := false, exchange := some { x with ended := true } }
        { s with
          scan := if p = .cp ∧ (s.port p).notices.tail.length < 64 then
              s.scan.map (fun sc => { sc with waiting := false })
            else s.scan })) ∧
    (x.handOver = .notice false →
      exec (.replyEnd p) s = .next (State.setPort p
        { s.port p with overflow := false, exchange := some { x with ended := true } }
        { s with
          scan := if p = .cp ∧ (s.port p).notices.length < 64 then
              s.scan.map (fun sc => { sc with waiting := false })
            else s.scan })) ∧
    (∀ code key d r limit, x.handOver = .entry code key →
      (s.port p).delayed.find? (fun d => d.code == code && d.key == key) = some d →
      d.condition = .complete r limit → p = .fp ∨ s.scan = none →
      exec (.replyEnd p) s = .next (s.setPort p
        { s.port p with
          delayed := (s.port p).delayed.filter (fun d => !(d.code == code && d.key == key))
          exchange := some { x with ended := true } })) ∧
    (x.handOver = .none → p = .fp ∨ s.scan = none →
      exec (.replyEnd p) s = .next (s.setPort p { s.port p with exchange := some { x with ended := true } })))

/-- R181: PORT STATUS answers with the mode, the counts of the port's queues, the request in application, the overflow
mark and the day count (0 while STARTING), and changes nothing else. -/
def Obligations.PortStatusAnswered : Prop :=
  ∀ (s : State) (f : Frame), (s.port f.port).resetLine = false → f.payload = [] →
    let u := s.port f.port
    exec (.portStatus f) s = .next (s.setPort f.port
      { u with
        exchange := some
          { reply := .doneStatus
              { mode := s.mode
                posted := u.posted.length
                head := if u.applying then u.posted.head?.map PostedReq.code else none
                delayed := u.delayed.length
                completed := (u.delayed.filter Delayed.completed).length
                notices := u.notices.length
                overflow := u.overflow
                day := if s.mode = .starting then 0 else s.dayCount }
            handOver := .none, ended := false } })

/-- R182 and R183: PORT RESET, and the reset line driven low, empty the port's queues but for the request in application
and clear the overflow mark; a CP scan that waits at the notice queue resumes (R60). The line also ends the exchange,
and holds the port until its release. A posted request accepted in the exchange that the line cuts short, its application
not started, is emptied with the queue; one handed over as head, at the end of the application before it, is in
application and stays (log entry 58). -/
def Obligations.PortResets : Prop :=
  (∀ (s : State) (f : Frame), (s.port f.port).resetLine = false → f.payload = [] →
    exec (.portReset f) s = .next (State.setPort f.port
      { s.port f.port with
        posted := if (s.port f.port).applying then (s.port f.port).posted.take 1 else []
        delayed := [], notices := [], overflow := false
        exchange := some { reply := .doneReset, handOver := .none, ended := false } }
      { s with
        scan := if f.port = .cp then s.scan.map (fun sc => { sc with waiting := false }) else s.scan })) ∧
  (∀ (s : State) (p : Port), (s.port p).resetLine = false →
    exec (.portResetLine p) s = .next (State.setPort p
      { s.port p with
        posted := if (s.port p).applying then (s.port p).posted.take 1 else []
        delayed := [], notices := [], overflow := false, exchange := none, resetLine := true }
      { s with scan := if p = .cp then s.scan.map (fun sc => { sc with waiting := false }) else s.scan })) ∧
  (∀ (s : State) (p : Port),
    exec (.portResetLineRelease p) s = .next (s.setPort p { s.port p with resetLine := false })) ∧
  (∀ (s : State) (f : Frame) (q : PostedReq), Spells f q → s.mode = .ready → (s.port f.port).resetLine = false →
    (s.port f.port).applying = false → (s.port f.port).posted.length < 32 →
    ∃ t v, exec (requestCommand f false q.code) s = .next t ∧ (t.port f.port).posted = (s.port f.port).posted ++ [q] ∧
      exec (.portResetLine f.port) t = .next v ∧ (v.port f.port).posted = [] ∧ (v.port f.port).applying = false)

/-! ### The step, part reset and start-up -/

/-- A step takes the command at the front of the queue and is `exec` of it with the queue's rest. With no command waiting
the clock counts one millisecond and nothing else changes (the model's choice, log entries 1 and 2). -/
def Obligations.StepTakesFrontCommand : Prop :=
  (∀ (s : State) (c : Instr) (rest : List Instr),
    step { s with pending := c :: rest } = exec c { s with pending := rest }) ∧
  ∀ s : State, s.pending = [] → step s = .next { s with now := s.now + 1 }

/-- R184, with R12, R64, R89, R111, R137, R153 and R188: what part reset leaves. Both ports STARTING with every queue
empty, the write queue and every table empty, the engine and the channels IDLE, every bay EMPTY, no line job, the
recognizer IDLE. Record memory, the store's content and the levels of the input pins outlast it. That the store and
the pins outlast it is the model's reading (log entries 9 to 11); that an exchange in progress is dropped (log entry
50), that a unit not yet read back equal is lost (log entry 45), what the tables and the day count hold until the load
(log entry 59), and the tag counter, the engine's other fields and the bins that the first clause finds unchanged (log
entries 59, 41 and 49) are its choice. -/
def Obligations.PartResetLeaves : Prop :=
  exec .partReset State.reset = .next State.reset ∧
  ∀ s : State, ∃ t, exec .partReset s = .next t ∧
    t.mode = .starting ∧ t.dayCount = 0 ∧ t.writeQueue = [] ∧ t.waiting = [] ∧ t.scan = none ∧ t.titles = [] ∧
    t.patrons = [] ∧ t.loans = [] ∧ t.settings = [] ∧ t.copyQueue = [] ∧ t.decreases = [] ∧ t.restorations = [] ∧
    t.stagingWriter = none ∧ t.walk = none ∧ t.grant = none ∧ t.searchFrom = .staging ∧
    t.engine.passing = false ∧ t.engine.cursor = 0 ∧ t.engine.again = false ∧
    (∀ c, (t.chan c).state = .idle ∧ (t.chan c).tag = none ∧ (t.chan c).bay = none) ∧
    (∀ b, (t.bay b).state = .empty ∧ (t.bay b).identity = none ∧ (t.bay b).presence = (s.bay b).presence) ∧
    t.lineJobs = [] ∧ t.lineCmd = none ∧ (∀ a, t.station a = .unused) ∧
    t.recog.stage = .idle ∧ t.recog.presence = s.recog.presence ∧
    (∀ p, (t.port p).posted = [] ∧ (t.port p).delayed = [] ∧ (t.port p).notices = [] ∧
      (t.port p).overflow = false ∧ (t.port p).exchange = none ∧ (t.port p).resetLine = (s.port p).resetLine) ∧
    t.mem = s.mem ∧ t.store = s.store ∧ t.pending = s.pending

/-- R189 and R190: the format mark read as valid starts the load; absent, invalid or unanswered, both ports enter
UNFORMATTED. A load that fails does the same; one that succeeds hands each block its records, reconciled. R24: the
withdrawing marks cleared, the pins counted from the PLANNED and COPYING loans, a STAGING title ABSENT, an unpinned
DAMAGED one ABSENT, an unpinned RETIRING one freed, and the free-extent map built from what remains. R63 and R40:
COPYING loans PLANNED, every bay field absent, the readers' counts taken from the loans. R110: a job without a bay for
every PLANNED or COPYING cartridge loan, by plan day and then tag. Close timers are stopped, settings clamped, and
what changed is handed, titles, then loans, then settings (log entry 46). That the staging sums are 0 after a load is the
model's choice (log entry 48), as is the tag counter kept in UNFORMATTED (log entry 59). An expiry moves the clock to its
deadline (the model's choice, log entry 3). -/
def Obligations.MarkReadAndLoad : Prop :=
  ∀ s : State,
    (∀ limit, s.startup = .readingMark limit →
      (testMark s.mem.mark = .valid → exec (.formatMarkRead true) s = .next { s with startup := .loading }) ∧
      (testMark s.mem.mark ≠ .valid →
        exec (.formatMarkRead true) s = .next { s with mode := .unformatted, startup := .settled }) ∧
      exec (.formatMarkRead false) s =
        .next { s with now := max s.now limit, mode := .unformatted, startup := .settled }) ∧
    (s.startup = .loading →
      exec (.recordLoadComplete false) s = .next { s with mode := .unformatted, startup := .settled } ∧
      (Table.sorted s.mem.loans = true →
        let pins (n : Nat) : Nat := s.mem.loans.countP (fun e =>
          (e.2.state == .planned || e.2.state == .copying) && e.2.titles.any (fun x => x.title == n))
        let after (n : Nat) (t : Title) : Option Title :=
          match t.body with
          | .vol v => some { withdrawing := false, body := .vol v }
          | .cart c =>
            let kept : CartTitle := { c with pins := pins n, received := 0, stagingSum := .zero, idleTimer := none }
            let absent : CartTitle := { kept with state := .absent, run1 := none, run2 := none }
            if c.state = .retiring ∧ pins n = 0 then none
            else if c.state = .staging ∨ (c.state = .damaged ∧ pins n = 0) then
              some { withdrawing := false, body := .cart absent }
            else some { withdrawing := false, body := .cart kept }
        let held (l : Loan) : Loan := { l with bay := none, state := if l.state = .copying then .planned else l.state }
        let clamped (n v : Nat) : Nat :=
          match paramOf n with
          | some row => if v < row.low then row.low else if row.high < v then row.high else v
          | none => v
        let titles : Table Title := s.mem.titles.filterMap (fun e => (after e.1 e.2).map (fun t => (e.1, t)))
        ∃ jobs : List (Nat × Loan),
          jobs.Perm (s.mem.loans.filter (fun e =>
            e.2.medium == .cartridge && (e.2.state == .planned || e.2.state == .copying))) ∧
          jobs.Pairwise (fun x y => x.2.planDay < y.2.planDay ∨ (x.2.planDay = y.2.planDay ∧ x.1 < y.1)) ∧
          exec (.recordLoadComplete true) s = .next
            { s with
              startup := .reconciled
              dayCount := s.mem.day
              nextTag := s.mem.nextTag
              settings := s.mem.settings.foldl (fun t e => writeSetting e.1 (clamped e.1 e.2) t) []
              titles := titles
              freeMap := titles.foldl
                (fun free e => match e.2.body with
                  | .cart c => (c.run1.toList ++ c.run2.toList).foldl (fun m r => takeFree r m) free
                  | .vol _ => free)
                [{ first := 0, count := 65536 }]
              patrons := s.mem.patrons.map (fun e => (e.1,
                { e.2 with
                  loansOut := s.mem.loans.countP (fun l => l.2.patron == e.2.number && l.2.state != .returning)
                  returnsOpen := s.mem.loans.countP (fun l => l.2.patron == e.2.number && l.2.state == .returning) }))
              loans := s.mem.loans.map (fun e => (e.1, held e.2))
              returned := s.mem.loans.countP (fun e => e.2.state == .copying)
              copyQueue := jobs.map (fun e => { tag := e.1, bay := none, attempts := 0, holder := none, rehome := none })
              bins := s.mem.bins.map (fun b => { state := b.state, list := b.list, closeTimer := none })
              writeQueue := s.writeQueue ++
                s.mem.titles.filterMap (fun e =>
                  if (after e.1 e.2).map Title.kept = some e.2.kept then none
                  else some [.title e.1 ((after e.1 e.2).map Title.kept)]) ++
                s.mem.loans.filterMap (fun e =>
                  if held e.2 = e.2 then none else some [.loan e.1 (some (held e.2))]) ++
                s.mem.settings.filterMap (fun e =>
                  if clamped e.1 e.2 = e.2 then none else some [.setting e.1 (clamped e.1 e.2)]) }))

/-- R190: records ready. Both ports READY with STARTED placed on each, one selection trigger, the overdue scan from the
lowest tag, every bay with its switch on IDENTIFYING, the configured stations ONLINE and the others UNUSED, a HOME job
sent, and the close timers of OPEN bins that hold loans started afresh. Every rebuilt job of a loan seeks a pool bay and,
with every bay EMPTY, finds none and starts its re-home timer (R100, R101, R110). After a format, R191, the application of
FORMAT RECORDS ends in the same event and the next posted request is handed over (R172). A scan over no loan ends in the
event that starts it (log entry 15). -/
def Obligations.RecordsReadyBegins : Prop :=
  ∀ s : State, s.startup = .reconciled ∨ s.startup = .formatted → (∀ b, (s.bay b).state = .empty) →
    s.lineJobs = [] → s.lineCmd = none →
    ∃ t, exec .recordsReady s = .next t ∧ t.mode = .ready ∧ t.startup = .settled ∧
      (∀ p, (s.port p).notices = [] → (t.port p).notices =
        [note .started s.dayCount
          [s.titles.length, s.patrons.length, s.loans.countP (fun e => e.2.state != .returning), s.returned]]) ∧
      t.engine.passing = true ∧
      (s.loans ≠ [] → t.scan = some { cursor := 0, waiting := false }) ∧ (s.loans = [] → t.scan = none) ∧
      (∀ b, (t.bay b).state = if (s.bay b).presence then .identifying else .empty) ∧
      (∀ a, 1 ≤ a → a ≤ 30 → t.station a = if s.configured a then .online else .unused) ∧
      t.lineJobs = [{ kind := .home, route := none, stage := .quiet }] ∧
      (∀ r, (t.bin r).closeTimer =
        if (s.bin r).state = .open ∧ (s.bin r).list ≠ [] then s.closeTimerStart r else (s.bin r).closeTimer) ∧
      t.copyQueue = s.copyQueue.map (fun j => if s.loan j.tag = none then j
        else { j with rehome := some (s.now + s.rehomeLimit) }) ∧
      (s.startup = .formatted → s.cp.posted.head? = some .formatRecords →
        t.cp.posted = s.cp.posted.tail ∧ t.cp.applying = !s.cp.posted.tail.isEmpty ∧
          t.cp.handed = !s.cp.posted.tail.isEmpty) ∧
      (s.startup = .reconciled → s.cp.applying = false → t.cp.posted = s.cp.posted ∧
        (s.cp.posted = [] ∨ s.loans ≠ [] → t.cp.applying = false)) ∧
      t.fp.posted = s.fp.posted ∧ t.titles = s.titles ∧ t.patrons = s.patrons ∧ t.loans = s.loans ∧ t.mem = s.mem ∧
      t.writeQueue = s.writeQueue

/-- R188, R59 and R191: a unit read back equal is in record memory and leaves the queue, the next one under its 50 ms; a
day written is today from then on and starts the scan, the mark written ends a format, the unit that erases it ends
none. A unit read back unequal, or not acknowledged in time, is written again. That record memory takes a unit at its
equal read-back, and not at its closing mark (R187), is the model's choice (log entry 45). An event that hands a unit
while the queue holds 128 is held back, nothing of it done; when a place is free it is taken as if it came then, but
for the expiry of a timer stopped or restarted since, and the end or the answer of a command that is over, which are
void (log entries 8 and 43). That the format's writes are these units: log entry 9. An expiry moves the clock to its deadline
(the model's choice, log entry 3). -/
def Obligations.UnitWritten : Prop :=
  (∀ (s : State) (u : WriteUnit) (rest : List WriteUnit) (pick : Nat), s.mode ≠ .starting → s.writeQueue = u :: rest →
    let done : State :=
      { s with
        mem := s.mem.write u, writeQueue := rest
        writeDeadline := if rest = [] then none else some (s.now + 50) }
    exec (.unitWriteComplete false pick) s = .next { s with writeDeadline := some (s.now + 50) } ∧
    (∀ limit, s.writeDeadline = some limit →
      exec .unitWriteAckTimeout s =
        .next { s with now := max s.now limit, writeDeadline := some (max s.now limit + 50) }) ∧
    (s.waiting = [] → s.noneReady →
      ((∀ d, u ≠ [.day d]) → (u = [.mark formatMark] → s.startup ≠ .formatting) →
        exec (.unitWriteComplete true pick) s = .next done) ∧
      (∀ d, u = [.day d] → s.loans ≠ [] →
        exec (.unitWriteComplete true pick) s =
          .next { done with dayCount := d, scan := some { cursor := 0, waiting := false } }) ∧
      (u = [.mark formatMark] → s.startup = .formatting →
        exec (.unitWriteComplete true pick) s = .next { done with startup := .formatted })) ∧
    (∀ h, s.waiting = [h] → s.noneReady → 1 ≤ pick → rest.length < 128 → (∀ d, u ≠ [.day d]) → (∀ m, u ≠ [.mark m]) →
      exec (.unitWriteComplete true pick) s = .next
        (if s.awaits h.event = h.awaited then commit h.event (retake h.event) { done with waiting := [] }
        else { done with waiting := [] })) ∧
    (∀ r deadline, s.waiting = [{ event := .closeTimerExpiry r, awaited := .timer deadline }] → s.noneReady →
      rest.length < 128 → (∀ d, u ≠ [.day d]) → (∀ m, u ≠ [.mark m]) →
      exec (.unitWriteComplete true pick) s =
        if (s.bin r).closeTimer = deadline then exec (.closeTimerExpiry r) { done with waiting := [] }
        else .next { done with waiting := [] }) ∧
    (∀ b record c, s.waiting = [{ event := .identityRecordReceived b record, awaited := .bayCommand c }] →
      s.noneReady → 1 ≤ pick → rest.length < 128 → (∀ d, u ≠ [.day d]) → (∀ m, u ≠ [.mark m]) →
      exec (.unitWriteComplete true pick) s =
        if (s.bay b).command = c then exec (.identityRecordReceived b record) { done with waiting := [] }
        else .next { done with waiting := [] })) ∧
  (∀ (s : State) (r : RouteNo) (limit : Nat), 128 ≤ s.writeQueue.length → (s.bin r).closeTimer = some limit →
    exec (.closeTimerExpiry r) s = .next
      { s with
        now := max s.now limit, waiting := s.waiting ++ [{ event := .closeTimerExpiry r, awaited := .timer (some limit) }] })

/-- R59: ADVANCE DAY asks for the write of the next day, held at 65,535, as a unit of its own; today is the former day
until it is written, and the request stays in application. R60: a visit of the overdue scan. A MAILED loan whose due
day is below the day count becomes OVERDUE with its notice; at a full CP notice queue the scan waits before it,
unmarked, and makes no visit until it resumes; any other loan is passed. After the highest tag the scan ends, and with
it the application of the ADVANCE DAY. The scan of records ready, which no request began, holds the CP posted queue back
until it ends (R63); that the queue's head is handed over in the event of that end is the model's choice (log entry 5). -/
def Obligations.AdvanceDayAndScan : Prop :=
  (∀ (s : State) (f : Frame), f.port = .cp → s.free .cp → Spells f .advanceDay →
    exec (.advanceDay f true) s =
      .next ((s.taking .cp .advanceDay).hand [.day (min 65535 (s.dayCount + 1))])) ∧
  (∀ (s : State) (sc : Scan), s.scan = some sc → sc.waiting = true → exec .overdueScanVisit s = .next s) ∧
  (∀ (s : State) (sc : Scan), s.scan = some sc → sc.waiting = false →
    let ends (t : State) : Prop :=
      (t.cp.applying = true → t.cp.posted.head? = some .advanceDay →
        exec .overdueScanVisit s = .next (State.endPosted .cp { t with scan := none })) ∧
      (t.cp.applying = false → t.cp.posted = [] → exec .overdueScanVisit s = .next { t with scan := none }) ∧
      (t.cp.applying = false → t.cp.posted ≠ [] →
        exec .overdueScanVisit s = .next
          { t with scan := none, cp := { t.cp with applying := true, handed := true } })
    (Table.above sc.cursor s.loans = none → ends s) ∧
    (∀ (tag : Nat) (l : Loan), Table.above sc.cursor s.loans = some (tag, l) →
      (∀ due, l.state = .mailed → l.dueDay = some due → due < s.dayCount →
        (s.cp.notices.length < 64 → s.writeQueue.length < 128 →
          let t : State :=
            (s.saveLoan tag { l with state := .overdue }).notify .cp (note .overdue tag [l.patron, due, s.dayCount])
          (Table.above tag s.loans ≠ none →
            exec .overdueScanVisit s = .next { t with scan := some { cursor := tag, waiting := false } }) ∧
          (Table.above tag s.loans = none → ends t)) ∧
        (64 ≤ s.cp.notices.length →
          exec .overdueScanVisit s = .next { s with scan := some { sc with waiting := true } })) ∧
      (l.state ≠ .mailed ∨ (∃ due, l.dueDay = some due ∧ s.dayCount ≤ due) →
        (Table.above tag s.loans ≠ none →
          exec .overdueScanVisit s = .next { s with scan := some { cursor := tag, waiting := false } }) ∧
        (Table.above tag s.loans = none → ends s))))

/-! ### Staging, want lists and selection -/

/-- R9 to R12: the end of a granted transfer ends the grant; a staged block is then in the store, a channel's read has
its completion to report. The next grant goes to the first of the other requesters that asks, searching the ring from
where the search stands, which is then after the requester granted; with none asking the path is free. A staged block
whose title has left STAGING by its grant is discarded, its STAGE BLOCK ends, and the search goes on from the same
place (log entry 36). The writer's completion ends the application of the STAGE BLOCK; after the last block the title
becomes RESIDENT where the sums agree, with a trigger, and ABSENT with its runs freed where they differ. The expiry of
the idle timer makes the title ABSENT as well. An expiry moves the clock to its deadline (the model's choice, log entry
3). Transfer end and completion are two events (log entry 16). That the staging sum is 0 outside STAGING is the model's
choice (log entry 48). -/
def Obligations.StagingEvents : Prop :=
  (∀ (s ended : State) (r : Requester), s.grant = some r →
    (∃ b, r = .staging ∧ s.stagingWriter = some b ∧ ended =
        { s with
          grant := none, store := writeStore b.storeBlock b.bytes s.store
          stagingWriter := some { b with transferred := true } }) ∨
      (∃ c, r = Chan.requester c ∧ ended =
        { s.setChan c { s.chan c with activity := .storeRead true } with grant := none }) →
    let asks (x : Requester) : Prop := x ≠ r ∧
      match x with
      | .staging => ∃ b, s.stagingWriter = some b ∧ b.transferred = false
      | .chanA => s.chanA.activity = .storeRequest
      | .chanB => s.chanB.activity = .storeRequest
    let given (x : Requester) (u : State) : State :=
      match x with
      | .staging => { u with grant := some .staging, searchFrom := .chanA }
      | .chanA =>
        { u.setChan .a { u.chan .a with activity := .storeRead false } with grant := some .chanA, searchFrom := .chanB }
      | .chanB =>
        { u.setChan .b { u.chan .b with activity := .storeRead false } with grant := some .chanB, searchFrom := .staging }
    let becomes (u : State) : Prop := exec .storeTransferComplete s = .next u
    ((∀ x, ¬asks x) → becomes ended) ∧
    (∀ front x back, [s.searchFrom, s.searchFrom.after, s.searchFrom.after.after] = front ++ x :: back →
      (∀ y ∈ front, ¬asks y) → asks x →
      (x ≠ .staging → becomes (given x ended)) ∧
      (∀ b, x = .staging → s.stagingWriter = some b →
        (∀ w k, s.title b.title = some { withdrawing := w, body := .cart k } → k.state = .staging →
          becomes (given .staging ended)) ∧
        ((∀ w k, s.title b.title = some { withdrawing := w, body := .cart k } → k.state ≠ .staging) →
          let discarded := State.endPosted .cp { ended with stagingWriter := none }
          ((∀ y ∈ back, ¬asks y) → becomes discarded) ∧
          (∀ mid y rest, back = mid ++ y :: rest → (∀ z ∈ mid, ¬asks z) → asks y →
            becomes (given y discarded)))))) ∧
  (∀ (s : State) (b : StagedBlock) (w : Bool) (c : CartTitle), s.stagingWriter = some b → b.transferred = true →
    s.grant ≠ some .staging → s.title b.title = some { withdrawing := w, body := .cart c } → c.state = .staging →
    s.writeQueue.length < 128 →
    (c.received ≠ c.length →
      exec .stagingWriteComplete s = .next (State.endPosted .cp { s with stagingWriter := none })) ∧
    (c.received = c.length → c.stagingSum = c.declared →
      exec .stagingWriteComplete s = .next (State.endPosted .cp (State.trigger (State.notify .cp
        (note .titleResident b.title [c.length])
        ({ s with stagingWriter := none }.saveTitle b.title
          { withdrawing := w
            body := .cart
              { c with
                state := .resident, lastUse := s.dayCount, received := 0, stagingSum := .zero
                idleTimer := none } }))))) ∧
    (c.received = c.length → c.stagingSum ≠ c.declared →
      exec .stagingWriteComplete s = .next (State.endPosted .cp (State.notify .cp
        (noteFor .stageFailed b.title .sum [c.declared.number, c.stagingSum.number])
        (({ s with stagingWriter := none }.freeRuns c).saveTitle b.title
          { withdrawing := w, body := .cart c.becomeAbsent }))))) ∧
  (∀ (s : State) (n : Nat) (w : Bool) (c : CartTitle) (limit : Nat),
    s.title n = some { withdrawing := w, body := .cart c } → c.idleTimer = some limit → s.writeQueue.length < 128 →
    exec (.stagingIdleExpiry n) s = .next (State.notify .cp
      (noteFor .stageFailed n .idle [c.received, c.length])
      (({ s with now := max s.now limit }.freeRuns c).saveTitle n
        { withdrawing := w, body := .cart c.becomeAbsent })))

/-- R17, R18 and R35: the withdrawal walk takes the title out of the next want list that holds it, slot by slot; past the
last, RETIRE TITLE ends by the record as it stands: refused ON_LOAN, freed, or RETIRING. R36, R37 and R29: a
restoration puts its titles before the list, drops what passes 24, lowers loans-out and raises a trigger; a decrease
lowers loans-out and raises one. A walk step passes the slots that do not hold the title (log entry 13); which waiting
request is taken is the command's operand (log entry 7). -/
def Obligations.PatronTableEvents : Prop :=
  (∀ (s : State) (w : Walk) (slot : Nat) (p : Patron), s.walk = some w →
    s.patrons.find? (fun e => decide (w.next ≤ e.1) && e.2.wants.contains w.title) = some (slot, p) →
    s.writeQueue.length < 128 →
    exec .withdrawalWalkStep s = .next
      { s.savePatron slot { p with wants := p.wants.filter (fun x => x != w.title) } with
        walk := some { w with next := slot + 1, changed := w.changed + 1 } }) ∧
  (∀ (s : State) (w : Walk), s.walk = some w →
    s.patrons.find? (fun e => decide (w.next ≤ e.1) && e.2.wants.contains w.title) = none →
    s.writeQueue.length < 128 →
    (∀ m v, s.title w.title = some { withdrawing := m, body := .vol v } →
      exec .withdrawalWalkStep s = .next (State.endPosted .cp
        (if v.onShelf < v.owned then
          State.notifyRefused .cp .retireTitle w.title .onLoan [v.owned, v.onShelf]
            ({ s with walk := none }.putTitle w.title { withdrawing := false, body := .vol v })
        else { s with walk := none }.dropTitle w.title))) ∧
    (∀ m c, s.title w.title = some { withdrawing := m, body := .cart c } → c.state ≠ .retiring →
      exec .withdrawalWalkStep s = .next (State.endPosted .cp
        (if c.state = .damaged ∨ (c.state = .resident ∧ c.pins ≠ 0) then
          { s with walk := none }.saveTitle w.title
            { withdrawing := false, body := .cart { c with state := .retiring } }
        else ({ s with walk := none }.freeRuns c).dropTitle w.title)))) ∧
  (∀ (s : State) (i : Nat) (r : Restoration) (slot : Nat) (p : Patron), s.restorations[i]? = some r →
    s.reader r.patron = some (slot, p) → s.writeQueue.length < 128 →
    let back := r.titles.filter (fun n => s.wantable n && (s.liveLoanNaming r.patron n).isNone)
    let whole := back ++ p.wants.filter (fun x => !back.contains x)
    let q := { p with loansOut := p.loansOut - 1, wants := whole.take 24 }
    let t := { s with restorations := s.restorations.eraseIdx i }
    exec (.restoration i) s = .next
      (let u := State.trigger (if whole.take 24 = p.wants then t.putPatron slot q else t.savePatron slot q)
       if whole.drop 24 = [] then u else u.notify .cp (note .wantDropped p.number (whole.drop 24)))) ∧
  (∀ (s : State) (i number slot : Nat) (p : Patron), s.decreases[i]? = some number →
    s.reader number = some (slot, p) →
    exec (.loansOutDecrease i) s = .next (State.trigger
      ({ s with decreases := s.decreases.eraseIdx i }.putPatron slot { p with loansOut := p.loansOut - 1 })))

/-- R68 to R72, R83 and R86: a selection visit passes a reader that is on hold, at the allowance or wants nothing, and one
of whose wants none can ship; ends the pass at a full loan table or past the last position; and plans a volume
shipment for the first want that can ship whole: the loan under the next free tag, the set off the shelf, the title
off the want list, loans-out up by 1, one unit, PICK to the FP and SHIPMENT PLANNED to the CP. R70: a pass that ends is
followed by another where the again-flag is set, or shipments were made and it did not end full; else the engine is
IDLE (its other fields then: log entry 41). A visit passes the free slots before it (log entry 12). -/
def Obligations.VisitPassesOrPlansVolume : Prop :=
  ∀ s : State, s.engine.passing = true → s.noneReady →
    let ended (g : Engine) : Engine :=
      let first := if g.cursor + 1 < 16384 then g.cursor + 1 else 0
      if g.again = true ∨ (g.endedFull = false ∧ 0 < g.shipments) then
        { g with
          passing := true, again := false, endedFull := false, shipments := 0, start := first, next := some first }
      else
        { passing := false, cursor := g.cursor, again := false, start := 0, next := none, shipments := 0
          endedFull := false }
    let visited (slot : Nat) (g : Engine) : Engine :=
      let after := if slot + 1 < 16384 then slot + 1 else 0
      if after = g.start then ended { g with next := none } else { g with next := some after }
    let passed (n : Nat) : Prop :=
      (∀ v, s.title n = some { withdrawing := false, body := .vol v } → v.onShelf = 0) ∧
      (∀ c, s.title n = some { withdrawing := false, body := .cart c } → c.state = .resident →
        24 ≤ s.copyQueue.length ∨
          ∀ b, (s.bay b).state = .blank → (s.bay b).releasePending = false →
            (s.bay b).usable < 8 * ((c.length + 1 + 7) / 8))
    (s.nextReader = none → exec .selectionVisit s = .next { s with engine := ended s.engine }) ∧
    (∀ slot p, s.nextReader = some (slot, p) →
      (32768 ≤ s.loans.length →
        exec .selectionVisit s = .next { s with engine := ended { s.engine with endedFull := true } }) ∧
      (s.loans.length < 32768 →
        (p.hold = true ∨ p.allowance ≤ p.loansOut ∨ (∀ n ∈ p.wants, passed n) →
          exec .selectionVisit s = .next { s with engine := visited slot s.engine }) ∧
        (∀ front n back v, p.hold = false → p.loansOut < p.allowance → p.wants = front ++ n :: back →
          (∀ x ∈ front, passed x) → s.title n = some { withdrawing := false, body := .vol v } → 0 < v.onShelf →
          s.writeQueue.length < 128 →
          let tag := s.newTag
          let l : Loan :=
            { patron := p.number, medium := .volume, state := .planned
              titles := [{ title := n, offset := 0, length := 0 }], planTotal := 0, bay := none, serial := none
              period := min s.periodCap s.basePeriod, planDay := s.dayCount, shipDay := none, dueDay := none
              route := none }
          let q := { p with wants := p.wants.filter (fun x => x != n), loansOut := p.loansOut + 1 }
          let m : Title := { withdrawing := false, body := .vol { v with onShelf := v.onShelf - 1 } }
          exec .selectionVisit s = .next (State.notify .cp
            (note .shipmentPlanned tag [p.number, LoanMedium.volume.number, n, 1])
            (State.notify .fp (note .pick tag [n, v.location, v.volumes])
              (State.hand
                [.loan tag (some l), .nextTag (tagAfter tag), .patron slot (some q.kept), .title n (some m.kept)]
                { ((s.putTitle n m).putLoan tag l).putPatron slot q with
                  nextTag := tagAfter tag
                  engine := visited slot { s.engine with cursor := slot, shipments := s.engine.shipments + 1 } }))))))

/-- R71, R73, R78, R82, R85 and R88: a selection visit that comes to a RESIDENT title that can ship, with no channel IDLE,
plans the cartridge shipment whole, and this is its whole next state: the bay the smallest of the pool that fits the
title, the lowest of equals, now RESERVED; the loan under the next free tag, its titles those of the fill walk; each
title pinned with its last-use day today; the job at the queue's tail; the titles off the want list; loans-out up by
1; one unit behind those that wait; SHIPMENT PLANNED to the CP; the lamp chain following the bays. The walk of R78
passes an entry that is no RESIDENT cartridge title, adds one that fits, and ends at the most titles of a cartridge or
at the skip limit. A visit passes the free slots before it (log entry 12); where it ends the pass in IDLE, the engine's
other fields are log entry 41. -/
def Obligations.VisitPlansCartridge : Prop :=
  (∀ (s : State) (slot : Nat) (p : Patron) (b : BayNo) (front back : List Nat) (n : Nat) (c : CartTitle),
    s.engine.passing = true → s.nextReader = some (slot, p) → s.loans.length < 32768 → p.hold = false →
    p.loansOut < p.allowance → p.wants = front ++ n :: back → p.wants.Nodup →
    (∀ x ∈ front,
      (∀ v, s.title x = some { withdrawing := false, body := .vol v } → v.onShelf = 0) ∧
      (∀ k, s.title x = some { withdrawing := false, body := .cart k } → k.state = .resident →
        ∀ y, (s.bay y).state = .blank → (s.bay y).releasePending = false →
          (s.bay y).usable < 8 * ((k.length + 1 + 7) / 8))) →
    s.title n = some { withdrawing := false, body := .cart c } → c.state = .resident → s.copyQueue.length < 24 →
    let space := 8 * ((c.length + 1 + 7) / 8)
    (s.bay b).state = .blank → (s.bay b).releasePending = false → space ≤ (s.bay b).usable →
    (∀ x, (s.bay x).state = .blank → (s.bay x).releasePending = false → space ≤ (s.bay x).usable →
      (s.bay b).usable < (s.bay x).usable ∨ ((s.bay b).usable = (s.bay x).usable ∧ b.val ≤ x.val)) →
    s.idleChannel = none → s.writeQueue.length < 128 →
    let plan : List PlanEntry :=
      { title := n, offset := 16, length := c.length } :: s.fillWalk back ((s.bay b).usable - space) 1 0 (16 + space)
    let tag := s.newTag
    let l : Loan :=
      { patron := p.number, medium := .cartridge, state := .planned, titles := plan
        planTotal := 16 + (plan.map (fun e => 8 * ((e.length + 1 + 7) / 8))).sum, bay := some b, serial := none
        period := min s.periodCap (s.basePeriod + s.periodStep * (plan.length - 1)), planDay := s.dayCount
        shipDay := none, dueDay := none, route := none }
    let q : Patron :=
      { p with
        wants := p.wants.filter (fun x => !(plan.map PlanEntry.title).contains x), loansOut := p.loansOut + 1 }
    ∃ titles : Table Title,
      (∀ x w k, x ∈ plan.map PlanEntry.title → s.title x = some { withdrawing := w, body := .cart k } →
        Table.find x titles =
          some { withdrawing := w, body := .cart { k with pins := k.pins + 1, lastUse := s.dayCount } }) ∧
      (∀ x, x ∉ plan.map PlanEntry.title → Table.find x titles = s.title x) ∧
      exec .selectionVisit s = .next (lampAfter s (State.notify .cp
        (note .shipmentPlanned tag [p.number, LoanMedium.cartridge.number, n, plan.length])
        (State.hand
          ([.loan tag (some l), .nextTag (tagAfter tag), .patron slot (some q.kept)] ++
            plan.flatMap (fun e => match Table.find e.title titles with
              | some t => [.title e.title (some t.kept)]
              | none => []))
          { s with
            titles := titles
            loans := Table.set tag l s.loans
            patrons := Table.set slot q s.patrons
            nextTag := tagAfter tag
            engine := Engine.advance slot { s.engine with cursor := slot, shipments := s.engine.shipments + 1 }
            bays := s.bays.set b { s.bay b with state := .reserved, tag := some tag }
            copyQueue := s.copyQueue ++
              [{ tag := tag, bay := some b, attempts := 0, holder := none, rehome := none }] })))) ∧
  (∀ (s : State) (left count skips offset w : Nat) (rest : List Nat),
    s.fillWalk [] left count skips offset = [] ∧
    (s.maxPlanTitles ≤ count → s.fillWalk (w :: rest) left count skips offset = []) ∧
    (count < s.maxPlanTitles →
      ((∀ c, s.title w = some { withdrawing := false, body := .cart c } → c.state ≠ .resident) →
        s.fillWalk (w :: rest) left count skips offset = s.fillWalk rest left count skips offset) ∧
      (∀ c, s.title w = some { withdrawing := false, body := .cart c } → c.state = .resident →
        let space := 8 * ((c.length + 1 + 7) / 8)
        (space ≤ left →
          s.fillWalk (w :: rest) left count skips offset =
            { title := w, offset := offset, length := c.length } ::
              s.fillWalk rest (left - space) (count + 1) skips (offset + space)) ∧
        (left < space →
          s.fillWalk (w :: rest) left count skips offset =
            if s.skipLimit ≤ skips + 1 then [] else s.fillWalk rest left count (skips + 1) offset))))

/-! ### Bays -/

/-- R89 and R93: a cartridge seated in an EMPTY bay of a READY part makes it IDENTIFYING, its READ IDENTITY sent at
once unless a channel holds the line; elsewhere only the switch is kept. R104: a removal empties the bay; a WRITTEN
loan loses the bay that it names; a RESERVED bay's loan loses its bay, its job waits under the re-home limit where no
pool bay fits, and BAY PULLED goes to the FP. R104, R105 and R126: from a WRITING, VERIFYING or TAGGING bay the loan is
PLANNED without a bay as well, and the channel is told to stop: at a store read in progress the job stays with it until
the read ends, at a cartridge command, sent or waiting for ready, or at a store request not granted it releases the job
at once (log entry 18). R93: a reading or a re-reading of the cartridge that waits for a place in the write queue is
discarded with it (log entry 43). The switch is sampled whatever becomes of the event (log entry 8). -/
def Obligations.BayPresence : Prop :=
  (∀ (s : State) (b : BayNo),
    (s.mode = .ready → (s.bay b).state = .empty → (s.bay b).command = none →
      (s.lineHeld b = false →
        exec (.bayPresenceOn b) s = .next (lampAfter s (s.setBay b
          { s.bay b with
            state := .identifying, presence := true, ready := false
            command := some (.readIdentity, s.now + s.bayStallTime) }))) ∧
      (s.lineHeld b = true →
        exec (.bayPresenceOn b) s = .next (lampAfter s (s.setBay b
          { s.bay b with state := .identifying, presence := true, ready := true })))) ∧
    (s.mode ≠ .ready ∨ (s.bay b).state ≠ .empty →
      exec (.bayPresenceOn b) s = .next (s.setBay b { s.bay b with presence := true }))) ∧
  (∀ (s : State) (b : BayNo),
    (s.bay b).state = .empty ∨ (s.bay b).state = .identifying ∨ (s.bay b).state = .blank ∨
        (s.bay b).state = .rejected ∨ (s.bay b).state = .erasing →
    exec (.bayPresenceOff b) s = .next (lampAfter s ((s.voidHeld b).setBay b .vacant))) ∧
  (∀ (s : State) (b : BayNo) (h : Held),
    h ∈ (s.voidHeld b).waiting →
      h ∈ s.waiting ∧ ∀ record, h.event ≠ .identityRecordReceived b record ∧ h.event ≠ .eraseRereadReceived b record) ∧
  (∀ (s : State) (b : BayNo) (tag : Nat) (l : Loan), (s.bay b).tag = some tag → s.loan tag = some l →
    s.writeQueue.length < 128 →
    ((s.bay b).state = .written → l.state = .written → l.bay = some b →
      exec (.bayPresenceOff b) s =
        .next (lampAfter s (((s.voidHeld b).setBay b .vacant).saveLoan tag { l with bay := none }))) ∧
    ((s.bay b).state = .written → l.state ≠ .written ∨ l.bay ≠ some b →
      exec (.bayPresenceOff b) s = .next (lampAfter s ((s.voidHeld b).setBay b .vacant))) ∧
    ((s.bay b).state = .reserved → s.firstFit l.need = none → s.idleChannel = none →
      exec (.bayPresenceOff b) s = .next (lampAfter s
        { (State.notify .fp (note .bayPulled b.val [tag, BayState.reserved.number])
            (((s.voidHeld b).setBay b .vacant).saveLoan tag { l with state := .planned, bay := none })) with
          copyQueue := s.copyQueue.map (fun j =>
            if j.tag = tag then { j with bay := none, rehome := some (s.now + s.rehomeLimit) } else j) })) ∧
    (∀ c j, (s.bay b).state = .writing ∨ (s.bay b).state = .verifying ∨ (s.bay b).state = .tagging → s.noneReady →
      s.job tag = some j → j.holder = some c → (s.chan c).state ≠ .idle → (s.chan c).stopping = false →
      (s.chan c).bay = some b → (s.chan c).tag = some tag →
      let pulled := State.notify .fp (note .bayPulled b.val [tag, (s.bay b).state.number])
        (((s.voidHeld b).setBay b .vacant).saveLoan tag { l with state := .planned, bay := none })
      (∀ ended, (s.chan c).activity = .storeRead ended →
        exec (.bayPresenceOff b) s = .next (lampAfter s
          { pulled.setChan c { s.chan c with stopping := true, stopCause := some .removal } with
            copyQueue := s.copyQueue.map (fun k => if k.tag = tag then { k with bay := none } else k) })) ∧
      ((∃ cmd limit, (s.chan c).activity = .commandSent cmd limit ∨ (s.chan c).activity = .commandDue cmd limit) ∨
          (s.chan c).activity = .storeRequest →
        s.firstFit l.need = none → (∀ k ∈ s.copyQueue, k.tag = tag → k = j) →
        exec (.bayPresenceOff b) s = .next (lampAfter s
          { pulled.setChan c .cleared with
            copyQueue := s.copyQueue.map (fun k =>
              if k.tag = tag then { k with bay := none, holder := none, rehome := some (s.now + s.rehomeLimit) }
              else k) }))))

/-- R93 to R95 and R99: the end of a newly seated cartridge's reading. No record in time, a record that is not well formed
or a capacity below 4,096 blocks rejects it UNSUITED. One that names a WRITTEN loan is WRITTEN again for it; other
recorded content is erased; a blank at the wear limit is rejected WORN, any other goes to the oldest bayless job it
fits, or joins the pool with a selection trigger. R109 and R45: with a channel IDLE, and no other job ready, the job so
given a bay is taken at once: its loan COPYING, the bay WRITING, the channel in HEADER with the context of the first
title and its header block's write sent. That a record of any length but 14 bytes is not well formed is the model's
reading (log entry 55). An expiry moves the clock to its deadline (the model's choice, log entry 3). -/
def Obligations.IdentifyEvents : Prop :=
  ∀ (s : State) (b : BayNo) (limit : Nat), (s.bay b).state = .identifying →
    (s.bay b).command = some (.readIdentity, limit) →
    ((s.bay b).identity = none →
      exec (.identifyStallExpiry b) s = .next (lampAfter s (State.notify .fp
        (noteFor .bayRejected b.val .unsuited [0, 0])
        ({ s with now := max s.now limit }.setBay b
          { s.bay b with
            state := .rejected, reject := some .unsuited, tag := none, eraseStarted := false, command := none }))) ∧
      ∀ record, parseIdentity record = none →
        exec (.identityRecordReceived b record) s = .next (lampAfter s (State.notify .fp
          (noteFor .bayRejected b.val .unsuited [0, 0])
          (s.setBay b
            { s.bay b with
              state := .rejected, reject := some .unsuited, tag := none, eraseStarted := false, command := none
              ready := true })))) ∧
    (∀ record i, parseIdentity record = some i → s.writeQueue.length < 128 →
      let c := min i.capacity 4194304
      let x : Bay :=
        { s.bay b with
          identity := some i, clamped := c, usable := if c < 4096 then 0 else c - 16 - c / 64
          tag := none, eraseStarted := false, command := none, ready := true }
      (c < 4096 → s.noneReady →
        exec (.identityRecordReceived b record) s = .next (lampAfter s (State.notify .fp
          (noteFor .bayRejected b.val .unsuited [i.serial, i.wear])
          (s.setBay b { x with state := .rejected, reject := some .unsuited })))) ∧
      (4096 ≤ c → s.noneReady → i.content = .recorded →
        (∀ l, 1 ≤ i.tagArea → i.tagArea ≤ 1048575 → s.loan i.tagArea = some l → l.medium = .cartridge →
          l.state = .written → l.serial = some i.serial → (s.bay b).eraseStarted = false →
          exec (.identityRecordReceived b record) s = .next (lampAfter s
            ((s.setBay b { x with state := .written, tag := some i.tagArea }).saveLoan i.tagArea
              { l with bay := some b }))) ∧
        (s.namedLoan i = none → s.lineHeld b = false →
          exec (.identityRecordReceived b record) s = .next (lampAfter s (s.setBay b
            { x with
              state := .erasing, eraseStarted := true, ready := false, ejectPulse := none
              command := some (.erase, s.now + s.eraseTimeLimit) })))) ∧
      (4096 ≤ c → i.content = .blank →
        (s.wearLimit ≤ i.wear → s.noneReady →
          exec (.identityRecordReceived b record) s = .next (lampAfter s (State.notify .fp
            (noteFor .bayRejected b.val .worn [i.serial, i.wear])
            (s.setBay b { x with state := .rejected, reject := some .worn })))) ∧
        (i.wear < s.wearLimit → s.noneReady → (∀ j ∈ s.copyQueue, s.bayless j = true → x.usable < s.needOf j) →
          exec (.identityRecordReceived b record) s =
            .next (lampAfter s (State.trigger (s.setBay b { x with state := .blank })))) ∧
        (∀ j l, i.wear < s.wearLimit → s.idleChannel = none → s.loan j.tag = some l →
          s.copyQueue.find? (fun k => s.bayless k && decide (s.needOf k ≤ x.usable)) = some j →
          exec (.identityRecordReceived b record) s = .next (lampAfter s
            { (s.setBay b { x with state := .reserved, tag := some j.tag }).saveLoan j.tag { l with bay := some b } with
              copyQueue := s.copyQueue.map (fun k =>
                if k.tag = j.tag then { k with bay := some b, attempts := 0, rehome := none } else k) })) ∧
        (∀ j l ch e rest k, i.wear < s.wearLimit → s.noneReady → s.idleChannel = some ch → s.loan j.tag = some l →
          s.copyQueue.find? (fun k => s.bayless k && decide (s.needOf k ≤ x.usable)) = some j →
          l.titles = e :: rest → s.cart e.title = some k → k.state = .resident ∨ k.state = .retiring →
          s.writeQueue.length < 127 →
          let given := (s.setBay b { x with state := .writing, tag := some j.tag, ready := false }).saveLoan j.tag
            { l with bay := some b }
          exec (.identityRecordReceived b record) s = .next (lampAfter s
            { (given.saveLoan j.tag { l with state := .copying, bay := some b }).setChan ch
                { state := .header, tag := some j.tag, bay := some b, titles := l.titles, index := 1
                  set1 := (runSets k).1, set2 := (runSets k).2, second := false, sum := .zero, block := e.offset
                  attempts := 0, stopping := false, stopCause := none
                  activity := .commandSent (.writeBlock e.offset (headerBlock 1 e.title j.tag k))
                    (s.now + s.bayStallTime) } with
              copyQueue := s.copyQueue.map (fun k =>
                if k.tag = j.tag then { k with bay := some b, attempts := 0, holder := some ch, rehome := none }
                else k) }))))

/-- R53 and R95: a newly seated cartridge that names a MAILED, OVERDUE or RETURNING loan by tag and serial is erased and
closes the loan with LOAN CLOSED (RETURNED); for a RETURNING loan returns open of its reader falls, for a MAILED or
OVERDUE one loans-out falls and RETURN ACCEPTED goes to both ports, on the CP before LOAN CLOSED (log entry 39). -/
def Obligations.IdentifiedReturnCloses : Prop :=
  ∀ (s : State) (b : BayNo) (limit : Nat) (record : List Byte) (i : Identity) (l : Loan),
    (s.bay b).state = .identifying → (s.bay b).command = some (.readIdentity, limit) →
    parseIdentity record = some i → 4096 ≤ i.capacity → i.content = .recorded → 1 ≤ i.tagArea → i.tagArea ≤ 1048575 →
    s.loan i.tagArea = some l → l.medium = .cartridge → l.serial = some i.serial → s.writeQueue.length < 128 →
    s.noneReady → s.lineHeld b = false →
    let c := min i.capacity 4194304
    let t := s.setBay b
      { s.bay b with
        state := .erasing, identity := some i, clamped := c, usable := c - 16 - c / 64, tag := none, ready := false
        ejectPulse := none, eraseStarted := true, command := some (.erase, s.now + s.eraseTimeLimit) }
    (l.state = .returning →
      exec (.identityRecordReceived b record) s = .next (lampAfter s (State.notify .cp
        (noteFor .loanClosed i.tagArea .returned [l.patron, l.medium.number])
        ((t.closeLoan i.tagArea []).lowerReturnsOpen l.patron)))) ∧
    (l.state = .mailed ∨ l.state = .overdue →
      exec (.identityRecordReceived b record) s = .next (lampAfter s (State.notify .cp
        (noteFor .loanClosed i.tagArea .returned [l.patron, l.medium.number])
        (State.notify .fp (note .returnAccepted i.tagArea [l.medium.number, 0, 0, 0])
          (State.notify .cp (note .returnAccepted i.tagArea [l.patron])
            ((t.closeLoan i.tagArea []).lowerLoansOut l.patron))))))

/-- R98: the end of an erase. A rise of ready sends the re-read; the time limit, a re-read that stalls, and a re-read that
is not blank or names a tag reject the cartridge ERASE_FAULT, one at the wear limit rejects it WORN; otherwise the bay
is BLANK, and joins the pool with a trigger where no bayless job fits it. C and U are kept. An expiry moves the clock
to its deadline (the model's choice, log entry 3). -/
def Obligations.EraseEvents : Prop :=
  ∀ (s : State) (b : BayNo) (limit : Nat) (old : Identity), (s.bay b).state = .erasing →
    (s.bay b).identity = some old →
    let rejected (why : RejectReason) (x : Bay) : Bay :=
      { x with state := .rejected, reject := some why, tag := none, eraseStarted := false, command := none }
    ((s.bay b).command = some (.erase, limit) →
      exec (.eraseReadyRise b) s = .next (s.setBay b
        { s.bay b with command := some (.reread, s.now + s.bayStallTime), ready := false }) ∧
      exec (.eraseTimeLimitExpiry b) s = .next (lampAfter s (State.notify .fp
        (noteFor .bayRejected b.val .eraseFault [old.serial, old.wear])
        ({ s with now := max s.now limit }.setBay b (rejected .eraseFault (s.bay b)))))) ∧
    ((s.bay b).command = some (.reread, limit) →
      exec (.eraseRereadStallExpiry b) s = .next (lampAfter s (State.notify .fp
        (noteFor .bayRejected b.val .eraseFault [old.serial, old.wear])
        ({ s with now := max s.now limit }.setBay b (rejected .eraseFault (s.bay b))))) ∧
      ∀ record i, parseIdentity record = some i → s.noneReady →
        let x : Bay :=
          { s.bay b with
            identity := some { old with wear := i.wear, content := i.content, tagArea := i.tagArea }, ready := true
            command := none }
        (i.content ≠ .blank ∨ i.tagArea ≠ 0 →
          exec (.eraseRereadReceived b record) s = .next (lampAfter s (State.notify .fp
            (noteFor .bayRejected b.val .eraseFault [old.serial, i.wear]) (s.setBay b (rejected .eraseFault x))))) ∧
        (i.content = .blank → i.tagArea = 0 → s.wearLimit ≤ i.wear →
          exec (.eraseRereadReceived b record) s = .next (lampAfter s (State.notify .fp
            (noteFor .bayRejected b.val .worn [old.serial, i.wear]) (s.setBay b (rejected .worn x))))) ∧
        (i.content = .blank → i.tagArea = 0 → i.wear < s.wearLimit →
          (∀ j ∈ s.copyQueue, s.bayless j = true → x.usable < s.needOf j) →
          exec (.eraseRereadReceived b record) s = .next (lampAfter s (State.trigger (s.setBay b
            { x with state := .blank, tag := none, eraseStarted := false })))))

/-- R106: the eject pulse ends. R91: the end of a lamp send starts one more where the codes changed during it. R101 and
R57: the expiry of a re-home timer fails the loan with reason REHOME on both ports, hands its titles back, unpins them
and takes its job from the queue. R116: a rise of ready is kept, or sends the command that waits for it. An expiry
moves the clock to its deadline (the model's choice, log entry 3). COPY FAILED gives no bay as all ones (log entry
29), and the loan's unit goes before those of its titles (log entry 40). -/
def Obligations.BayTimers : Prop :=
  (∀ (s : State) (b : BayNo) (limit : Nat), (s.bay b).ejectPulse = some limit →
    exec (.latchEjectPulseEnd b) s =
      .next ({ s with now := max s.now limit }.setBay b { s.bay b with ejectPulse := none })) ∧
  (∀ (s : State) (w : BitVec 32), s.lamp.sending = some w →
    exec .lampChainSendEnd s = .next
      { s with
        lamp := if s.lamp.again then { sending := some (lampWord s.bays), again := false }
          else { sending := none, again := false } }) ∧
  (∀ (s : State) (tag limit : Nat) (j : Job) (l : Loan), s.job tag = some j → j.rehome = some limit →
    s.loan tag = some l → l.medium = .cartridge → l.state = .planned → l.bay = none →
    s.writeQueue.length + l.titles.length < 128 →
    let n := noteFor .copyFailed tag .rehome [l.patron, l.firstTitle, 4294967295]
    let t := { s with now := max s.now limit }.closeLoan tag []
    let u : State :=
      { t with
        restorations := t.restorations ++ [{ patron := l.patron, titles := l.titles.map PlanEntry.title }] }
    exec (.rehomeTimerExpiry tag) s =
      .next (State.notify .fp n (State.notify .cp n ((u.leaveQueue tag).unpinAll l.titles)))) ∧
  (∀ (s : State) (b : BayNo), (s.bay b).command = none →
    ((∀ c, (s.chan c).bay ≠ some b) →
      exec (.cartridgeReadyRise b) s = .next (s.setBay b { s.bay b with ready := true })) ∧
    (∀ c cmd limit, (s.chan c).bay = some b → (s.chan c).activity = .commandDue cmd limit →
      (∀ d, d ≠ c → (s.chan d).bay ≠ some b) →
      exec (.cartridgeReadyRise b) s = .next
        ((s.setBay b { s.bay b with ready := false }).setChan c
          { s.chan c with activity := .commandSent cmd limit })))

/-! ### Copy channels -/

/-- R113, R115, R117 to R122, R15 and R57: the ends of a channel's writes. After a header, or an image block that is not
the last, the channel asks for the next store block, granted at once on a free path. After the last block of a title,
with the sums agreed, the next title starts, and after the last title INDEX begins; index blocks follow to the 16th,
then the read-back begins; the tag write is followed by the drain. Where the store sum differs the title is DAMAGED
with TITLE DAMAGED and the loan fails with reason SUM, and where the next title is neither RESIDENT nor RETIRING it
fails with reason DAMAGED: closed, its titles handed back and unpinned, its job out of the queue, its bay ERASING and,
the line then free, erased, COPY FAILED to both ports, the channel IDLE. A RETIRING title with a bad sum sends TITLE DAMAGED
and stays RETIRING, a DAMAGED one sends no second. The loan's unit goes before those of its titles (log entry 40); that
TITLE DAMAGED stands before COPY FAILED on the CP is the model's choice (log entry 39), and that a next title ABSENT or
STAGING fails the loan like a DAMAGED one is the model's reading (log entry 19). The cartridge block kept in DRAINING is the
model's choice (log entry 53), and the run descriptor sets and the running sum kept after IMAGE are its reading (log
entry 54). -/
def Obligations.ChannelWriteEnds : Prop :=
  ∀ (s : State) (c : Chan) (b : BayNo) (limit : Nat), (s.chan c).stopping = false → (s.chan c).bay = some b →
    s.noneReady →
    let x := s.chan c
    (∀ n bytes, x.activity = .commandSent (.writeBlock n bytes) limit →
      (x.state = .header ∨ (x.state = .image ∧ x.imageEnded = false) →
        (s.grant ≠ none →
          exec (if x.state = .header then .headerWriteEnd c else .imageBlockWriteEnd c) s = .next
            ((s.setBay b { s.bay b with ready := true }).setChan c
              { x with state := .image, block := x.block + 1, activity := .storeRequest })) ∧
        (s.grant = none →
          s.searchFrom = (Chan.requester c) ∨
            ((∀ w, s.stagingWriter = some w → w.transferred = true) ∧
              ∀ d, d ≠ c → (s.chan d).activity ≠ .storeRequest) →
          exec (if x.state = .header then .headerWriteEnd c else .imageBlockWriteEnd c) s = .next
            { (s.setBay b { s.bay b with ready := true }).setChan c
                { x with state := .image, block := x.block + 1, activity := .storeRead false } with
              grant := some (Chan.requester c), searchFrom := (Chan.requester c).after })) ∧
      (∀ tag e k, x.state = .image → x.imageEnded = true → x.tag = some tag → x.entry = some e →
        s.cart e.title = some k → k.declared = x.sum → x.titles.length ≤ x.index →
        exec (.imageBlockWriteEnd c) s = .next
          ((s.setBay b { s.bay b with ready := false }).setChan c
            { x with
              state := .index, index := 0, block := 0
              activity := .commandSent (.writeBlock 0 (s.indexRegionBlock c 0)) (s.now + s.bayStallTime) })) ∧
      (∀ tag e k e2 k2, x.state = .image → x.imageEnded = true → x.tag = some tag → x.entry = some e →
        s.cart e.title = some k → k.declared = x.sum → x.titles[x.index]? = some e2 → s.cart e2.title = some k2 →
        k2.state = .resident ∨ k2.state = .retiring →
        exec (.imageBlockWriteEnd c) s = .next
          ((s.setBay b { s.bay b with ready := false }).setChan c
            { x with
              state := .header, index := x.index + 1, set1 := (runSets k2).1, set2 := (runSets k2).2, second := false
              sum := .zero, block := e2.offset
              activity := .commandSent (.writeBlock e2.offset (headerBlock (x.index + 1) e2.title tag k2))
                (s.now + s.bayStallTime) })) ∧
      (∀ tag e w k l, x.state = .image → x.imageEnded = true → x.tag = some tag → x.entry = some e →
        s.title e.title = some { withdrawing := w, body := .cart k } → s.loan tag = some l → l.medium = .cartridge →
        l.state = .copying → l.bay = some b → (∀ d, d ≠ c → (s.chan d).bay ≠ some b) →
        s.writeQueue.length + l.titles.length + 1 < 128 →
        let failed (t : State) (why : Reason) (title : Nat) : Host.Outcome State Fault Refusal :=
          let n := noteFor .copyFailed tag why [l.patron, title, b.val]
          let u := t.closeLoan tag []
          .next (lampAfter s
            ((State.notify .fp n (State.notify .cp n
              (((State.leaveQueue tag
                { u with
                  restorations := u.restorations ++
                    [{ patron := l.patron, titles := l.titles.map PlanEntry.title }] }).unpinAll l.titles).setBay b
                { s.bay b with
                  state := .erasing, tag := none, eraseStarted := true, ready := false, ejectPulse := none
                  command := some (.erase, s.now + s.eraseTimeLimit) }))).setChan c .cleared))
        (k.declared ≠ x.sum → k.state = .resident → k.pins ≠ 0 →
          exec (.imageBlockWriteEnd c) s =
            failed
              ((s.saveTitle e.title { withdrawing := w, body := .cart { k with state := .damaged } }).notify .cp
                (note .titleDamaged e.title [k.declared.number, x.sum.number]))
              .sum e.title) ∧
        (k.declared ≠ x.sum → k.state = .retiring → k.pins ≠ 0 →
          exec (.imageBlockWriteEnd c) s =
            failed (s.notify .cp (note .titleDamaged e.title [k.declared.number, x.sum.number])) .sum e.title) ∧
        (k.declared ≠ x.sum → k.state = .damaged → k.pins ≠ 0 →
          exec (.imageBlockWriteEnd c) s = failed s .sum e.title) ∧
        (∀ e2 k2, k.declared = x.sum → x.titles[x.index]? = some e2 → s.cart e2.title = some k2 →
          k2.state ≠ .resident → k2.state ≠ .retiring →
          exec (.imageBlockWriteEnd c) s = failed s .damaged e2.title)) ∧
      (x.state = .index → x.block + 1 < 16 →
        exec (.indexBlockWriteEnd c) s = .next
          ((s.setBay b { s.bay b with ready := false }).setChan c
            { x with
              block := x.block + 1
              activity := .commandSent (.writeBlock (x.block + 1) (List.replicate 4096 0))
                (s.now + s.bayStallTime) })) ∧
      (∀ e rest, x.state = .index → x.block = 15 → x.titles = e :: rest →
        exec (.indexBlockWriteEnd c) s = .next (lampAfter s
          ((s.setBay b { s.bay b with state := .verifying, ready := false }).setChan c
            { x with
              state := .verify, index := 1, sum := .zero, block := e.offset + 1
              activity := .commandSent (.readBlock (e.offset + 1)) (s.now + s.bayStallTime) })))) ∧
    (∀ tag, x.state = .tagging → x.activity = .commandSent (.writeTag tag) limit →
      exec (.writeTagEnd c) s = .next
        ((s.setBay b { s.bay b with ready := false }).setChan c
          { x with state := .draining, activity := .commandSent .drain (s.now + s.bayStallTime) }))

/-- R112, R113, R117 and R120: the block a store read brings, as the store holds it or damaged, is summed, the run set
advances, and its write is sent, or waits for ready; a completion taken while the grant is held ends it first (log
entry 16). A block read back is summed and the next read; after the last
block of a title the sums agreed begin the next title's read-back, after the last title TAGGING, and sums that differ,
within the retry limit, begin the retry's erase, the title index and the cartridge block kept (log entry 20). The
cartridge block in TAGGING, one past the last block read back, is the model's choice (log entry 53); the run descriptor
sets kept after IMAGE, and the sum after the read-back, are its reading (log entry 54). A store block nothing has
written reads as zeros (the model's choice, log entry 10). -/
def Obligations.ChannelReadEnds : Prop :=
  ∀ (s : State) (c : Chan) (b : BayNo), (s.chan c).stopping = false → (s.chan c).bay = some b → s.noneReady →
    let x := s.chan c
    (∀ damaged : Option (List Byte), x.activity = .storeRead true → s.grant ≠ some (Chan.requester c) →
      let bytes := match damaged with
        | some bytes => bytes
        | none => readStore s.store (if x.second then x.set2.now else x.set1.now)
      let y := { x.advanceSet with sum := x.sum.addBytes bytes }
      ((s.bay b).ready = true →
        exec (.channelStoreReadComplete c damaged) s = .next
          ((s.setBay b { s.bay b with ready := false }).setChan c
            { y with activity := .commandSent (.writeBlock x.block bytes) (s.now + s.bayStallTime) })) ∧
      ((s.bay b).ready = false →
        exec (.channelStoreReadComplete c damaged) s = .next (s.setChan c
          { y with activity := .commandDue (.writeBlock x.block bytes) (s.now + s.bayStallTime) }))) ∧
    (x.activity = .storeRead false → s.grant = some (Chan.requester c) → s.stagingWriter = none →
      (∀ d, d ≠ c → (s.chan d).activity ≠ .storeRequest) → (s.bay b).ready = true →
      let bytes := readStore s.store (if x.second then x.set2.now else x.set1.now)
      exec (.channelStoreReadComplete c none) s = .next
        { (s.setBay b { s.bay b with ready := false }).setChan c
            { x.advanceSet with
              sum := x.sum.addBytes bytes
              activity := .commandSent (.writeBlock x.block bytes) (s.now + s.bayStallTime) } with
          grant := none }) ∧
    (∀ n limit e k block, x.state = .verify → x.activity = .commandSent (.readBlock n) limit → x.entry = some e →
      s.cart e.title = some k →
      (x.block < e.offset + e.length →
        exec (.verifyBlockReadEnd c block) s = .next
          ((s.setBay b { s.bay b with ready := false }).setChan c
            { x with
              sum := x.sum.addBytes block, block := x.block + 1
              activity := .commandSent (.readBlock (x.block + 1)) (s.now + s.bayStallTime) })) ∧
      (∀ e2, e.offset + e.length ≤ x.block → k.declared = x.sum.addBytes block → x.titles[x.index]? = some e2 →
        exec (.verifyBlockReadEnd c block) s = .next
          ((s.setBay b { s.bay b with ready := false }).setChan c
            { x with
              index := x.index + 1, sum := .zero, block := e2.offset + 1
              activity := .commandSent (.readBlock (e2.offset + 1)) (s.now + s.bayStallTime) })) ∧
      (∀ tag, e.offset + e.length ≤ x.block → k.declared = x.sum.addBytes block → x.titles.length ≤ x.index →
        x.tag = some tag →
        exec (.verifyBlockReadEnd c block) s = .next (lampAfter s
          ((s.setBay b { s.bay b with state := .tagging, ready := false }).setChan c
            { x with
              state := .tagging, index := 0, sum := x.sum.addBytes block, block := x.block + 1
              activity := .commandSent (.writeTag tag) (s.now + s.bayStallTime) }))) ∧
      (e.offset + e.length ≤ x.block → k.declared ≠ x.sum.addBytes block → x.attempts < s.copyRetryLimit →
        exec (.verifyBlockReadEnd c block) s = .next (lampAfter s
          ((s.setBay b { s.bay b with state := .writing, ready := false }).setChan c
            { x with
              state := .retryErase, sum := x.sum.addBytes block, block := x.block + 1
              activity := .commandSent .erase (s.now + s.eraseTimeLimit) }))))

/-- R116 and R123 to R125: a command that stalls within the retry limit is followed by the retry's erase; the end of
that erase counts an attempt and restarts the job with its first title's header block. A stall past the retry limit,
and a retry erase past its time limit, give the bay up: REJECTED (WRITE_FAULT) with BAY REJECTED, the loan PLANNED
without a bay, the channel IDLE, the job bayless, its re-home timer running where no pool bay fits it. Where one does,
the job has it with attempt count 0, and with the other channel busy the channel takes it again at once (R100, R109). A
channel in RETRY_ERASE keeps its title index and cartridge block (log entry 20), its sets and sum (log entry 54). An
expiry moves the clock to its deadline (the model's choice, log entry 3). -/
def Obligations.ChannelFaults : Prop :=
  ∀ (s : State) (c : Chan) (b : BayNo) (tag : Nat) (l : Loan) (j : Job) (cmd : CartCommand) (limit : Nat),
    (s.chan c).stopping = false → (s.chan c).bay = some b → (s.chan c).tag = some tag → s.loan tag = some l →
    s.job tag = some j → j.holder = some c → s.noneReady → s.writeQueue.length < 128 →
    (s.chan c).activity = .commandSent cmd limit → (s.bay b).ready = false →
    let x := s.chan c
    let now := max s.now limit
    let lost : State :=
      (State.notify .fp
        (noteFor .bayRejected b.val .writeFault
          [((s.bay b).identity.map Identity.serial).getD 0, ((s.bay b).identity.map Identity.wear).getD 0])
        ({ s with now := now }.setBay b
          { s.bay b with
            state := .rejected, reject := some .writeFault, tag := none, eraseStarted := false
            command := none })).saveLoan tag { l with state := .planned, bay := none }
    let gaveUp : State :=
      { lost.setChan c .cleared with
        copyQueue := s.copyQueue.map (fun k =>
          if k.tag = tag then { k with bay := none, holder := none, rehome := some (now + s.rehomeLimit) } else k) }
    let moved (b2 : BayNo) (e : PlanEntry) (k : CartTitle) : State :=
      { ((((lost.setBay b2 { s.bay b2 with state := .writing, tag := some tag, ready := false }).saveLoan tag
            { l with state := .planned, bay := some b2 }).saveLoan tag
          { l with state := .copying, bay := some b2 }).setChan c
            { state := .header, tag := some tag, bay := some b2, titles := l.titles, index := 1
              set1 := (runSets k).1, set2 := (runSets k).2, second := false, sum := .zero, block := e.offset
              attempts := 0, stopping := false, stopCause := none
              activity := .commandSent (.writeBlock e.offset (headerBlock 1 e.title tag k)) (now + s.bayStallTime) }) with
        copyQueue := s.copyQueue.map (fun k =>
          if k.tag = tag then { k with bay := some b2, attempts := 0, holder := some c, rehome := none } else k) }
    (∀ b2 e rest k, s.firstFit l.need = some b2 → b2 ≠ b → (s.bay b2).ready = true → s.writeQueue.length < 126 →
      (∀ d, d ≠ c → (s.chan d).state ≠ .idle) → l.titles = e :: rest → s.cart e.title = some k →
      k.state = .resident ∨ k.state = .retiring → (∀ i ∈ s.copyQueue, i.tag = tag → i = j) →
      (cmd ≠ .erase → s.copyRetryLimit ≤ x.attempts →
        exec (.cartridgeStallExpiry c) s = .next (lampAfter s (moved b2 e k))) ∧
      (cmd = .erase → x.state = .retryErase →
        exec (.retryEraseLimitExpiry c) s = .next (lampAfter s (moved b2 e k)))) ∧
    (cmd ≠ .erase → x.attempts < s.copyRetryLimit →
      exec (.cartridgeStallExpiry c) s = .next (lampAfter s
        (({ s with now := now }.setBay b { s.bay b with state := .writing }).setChan c
          { x with state := .retryErase, activity := .commandDue .erase (now + s.eraseTimeLimit) }))) ∧
    (cmd ≠ .erase → s.copyRetryLimit ≤ x.attempts → s.firstFit l.need = none →
      exec (.cartridgeStallExpiry c) s = .next (lampAfter s gaveUp)) ∧
    (cmd = .erase → x.state = .retryErase → s.firstFit l.need = none →
      exec (.retryEraseLimitExpiry c) s = .next (lampAfter s gaveUp)) ∧
    (∀ e rest k, cmd = .erase → x.state = .retryErase → x.titles = e :: rest → s.cart e.title = some k →
      k.state = .resident ∨ k.state = .retiring →
      exec (.retryEraseEnd c) s = .next
        { s.setChan c
            { x with
              state := .header, index := 1, set1 := (runSets k).1, set2 := (runSets k).2, second := false, sum := .zero
              block := e.offset, attempts := x.attempts + 1
              activity := .commandSent (.writeBlock e.offset (headerBlock 1 e.title tag k)) (s.now + s.bayStallTime) } with
          copyQueue := s.copyQueue.map (fun k => if k.tag = tag then { k with attempts := k.attempts + 1 } else k) })

/-- R46, R102 and R122: the drain confirmation makes a COPYING loan WRITTEN with its cartridge's serial, unpins its
titles, takes its job from the queue, makes the bay WRITTEN and sends CARTRIDGE WRITTEN to the FP; the channel is IDLE;
the loan's unit goes before those of its titles (log entry 40). R126 and R127: a channel that a cancel has told to stop
releases at the end of its command, whatever the command, or at its time limit, which is no fault, or at the end of its
store read, with no report; the waiting erase of the bay is then sent. R126 and R128: a channel that a removal has told
to stop during a store read releases at the end of the read: the job becomes bayless in its place and takes a fitting
pool bay, and with the other channel busy the channel takes it again at once (R100, R109), or starts its re-home timer,
and is gone after a cancel; the waiting reading of a cartridge seated since is then sent. A read's completion taken
while the grant is held ends it (log entry 16). An expiry moves the clock to its deadline (the model's choice, log
entry 3). -/
def Obligations.DrainAndStop : Prop :=
  (∀ (s : State) (c : Chan) (b : BayNo) (tag limit : Nat) (l : Loan) (i : Identity) (slot : Nat) (p : Patron),
    (s.chan c).bay = some b → (s.chan c).tag = some tag → s.noneReady → (s.chan c).state = .draining →
    (s.chan c).activity = .commandSent .drain limit → (s.chan c).stopping = false → s.loan tag = some l →
    l.state = .copying → (s.bay b).identity = some i → s.reader l.patron = some (slot, p) →
    s.writeQueue.length + l.titles.length < 128 →
    exec (.drainConfirmation c) s = .next (lampAfter s (State.setChan c .cleared
      (State.notify .fp (note .cartridgeWritten tag [b.val, p.route.val, i.serial])
        ((((s.saveLoan tag { l with state := .written, serial := some i.serial }).unpinAll l.titles).leaveQueue
          tag).setBay b { s.bay b with state := .written, ready := true }))))) ∧
  (∀ (s : State) (c : Chan) (b : BayNo) (tag limit : Nat), (s.chan c).bay = some b → (s.chan c).tag = some tag →
    (s.chan c).stopping = true → s.noneReady →
    let x := s.chan c
    let sent (cmd : CartCommand) : Prop := x.activity = .commandSent cmd limit
    (s.job tag = none → (s.bay b).state = .erasing → (s.bay b).eraseStarted = false →
      (∀ d, d ≠ c → (s.chan d).bay ≠ some b) →
      let released (u : State) : State :=
        (u.setBay b
          { s.bay b with
            eraseStarted := true, command := some (.erase, u.now + s.eraseTimeLimit), ready := false }).setChan c .cleared
      let late : State := { s with now := max s.now limit }
      (∀ n bytes, sent (.writeBlock n bytes) →
        (x.state = .header → exec (.headerWriteEnd c) s = .next (released s)) ∧
        (x.state = .image → exec (.imageBlockWriteEnd c) s = .next (released s)) ∧
        (x.state = .index → exec (.indexBlockWriteEnd c) s = .next (released s))) ∧
      (∀ n block, sent (.readBlock n) → x.state = .verify →
        exec (.verifyBlockReadEnd c block) s = .next (released s)) ∧
      (∀ n, sent (.writeTag n) → x.state = .tagging → exec (.writeTagEnd c) s = .next (released s)) ∧
      (sent .drain → x.state = .draining → exec (.drainConfirmation c) s = .next (released s)) ∧
      (sent .erase → x.state = .retryErase → exec (.retryEraseEnd c) s = .next (released s)) ∧
      (∀ cmd, sent cmd → cmd ≠ .erase → exec (.cartridgeStallExpiry c) s = .next (released late)) ∧
      (sent .erase ∨ x.activity = .commandDue .erase limit → x.state = .retryErase →
        exec (.retryEraseLimitExpiry c) s = .next (released late)) ∧
      (∀ ended damaged, x.activity = .storeRead ended → s.grant ≠ some (Chan.requester c) →
        exec (.channelStoreReadComplete c damaged) s = .next (released s)) ∧
      (∀ damaged, x.activity = .storeRead false → s.grant = some (Chan.requester c) → s.stagingWriter = none →
        (∀ d, d ≠ c → (s.chan d).activity ≠ .storeRequest) →
        exec (.channelStoreReadComplete c damaged) s = .next (released { s with grant := none }))) ∧
    (∀ ended damaged, x.activity = .storeRead ended → s.grant ≠ some (Chan.requester c) →
      let becomes (u : State) : Prop := exec (.channelStoreReadComplete c damaged) s = .next u
      (s.job tag = none → (s.bay b).state = .empty → becomes (s.setChan c .cleared)) ∧
      (s.job tag = none → (s.bay b).state = .identifying → (s.bay b).command = none →
        (∀ d, d ≠ c → (s.chan d).bay ≠ some b) →
        becomes ((s.setBay b
          { s.bay b with command := some (.readIdentity, s.now + s.bayStallTime), ready := false }).setChan c
          .cleared)) ∧
      (∀ j l, s.job tag = some j → j.holder = some c → j.bay = none → (∀ k ∈ s.copyQueue, k.tag = tag → k = j) →
        s.loan tag = some l → l.state = .planned → (s.bay b).state = .empty →
        (s.firstFit l.need = none →
          becomes
            { s.setChan c .cleared with
              copyQueue := s.copyQueue.map (fun k =>
                if k.tag = tag then { k with holder := none, rehome := some (s.now + s.rehomeLimit) } else k) }) ∧
        (∀ b2 e rest k, s.firstFit l.need = some b2 → (s.bay b2).ready = true → s.writeQueue.length < 127 →
          (∀ d, d ≠ c → (s.chan d).state ≠ .idle) → l.titles = e :: rest → s.cart e.title = some k →
          k.state = .resident ∨ k.state = .retiring →
          becomes (lampAfter s
            { (((s.setBay b2 { s.bay b2 with state := .writing, tag := some tag, ready := false }).saveLoan tag
                  { l with bay := some b2 }).saveLoan tag { l with state := .copying, bay := some b2 }).setChan c
                  { state := .header, tag := some tag, bay := some b2, titles := l.titles, index := 1
                    set1 := (runSets k).1, set2 := (runSets k).2, second := false, sum := .zero, block := e.offset
                    attempts := 0, stopping := false, stopCause := none
                    activity := .commandSent (.writeBlock e.offset (headerBlock 1 e.title tag k))
                      (s.now + s.bayStallTime) } with
              copyQueue := s.copyQueue.map (fun k =>
                if k.tag = tag then { k with bay := some b2, attempts := 0, holder := some c, rehome := none }
                else k) })))))

/-! ### Mailing line and bins -/

/-- R141 and R142: a LABEL acknowledged for a loan and bin that still allow it is followed by the GATE of its route, else
the job ends refused UNKNOWN_LOAN, WRONG_STATE, BIN_CLOSED or STATION_OFFLINE; a GATE acknowledged makes the loan
BAGGED and last in the bin, which below its trigger level restarts its close timer, in one unit, and at it is
released, or ends refused BIN_CLOSED or UNKNOWN_LOAN. A NAK to either is refused LABEL_FAULT, whatever has become of
the loan (log entry 42); a tag given to a new loan since a FORMAT RECORDS stands for that loan (log entry 56). R135: a station that answers a PING is ONLINE. R137 and R139: the job that ends lets the next
start: a PING at once, a CONTAIN ITEM by its first check, ending refused where the check or the label station stops
it. R197 and R132: an answer that is discarded, or that comes after the answer time, changes nothing; a well-formed answer
after a discarded one and within the answer time ends the command (log entry 57). -/
def Obligations.LineAnswers : Prop :=
  ∀ (s : State) (cmd : LineSend) (limit : Nat) (chars : List LineChar), s.lineCmd = some cmd →
    cmd.phase = .awaiting limit →
    exec (.lineAnswerDiscarded chars) s = .next s ∧
    (limit < s.now → exec (.labelAnswer chars) s = .next s ∧ exec (.gateAnswer chars) s = .next s ∧
      exec (.pingAnswer chars) s = .next s) ∧
    (s.now ≤ limit →
      (∀ tag r stage, s.lineJobs = [{ kind := .contain tag, route := some r, stage := stage }] →
        let refused (why : Reason) (values : List Nat) : Host.Outcome State Fault Refusal :=
          .next { s.notifyRefused .fp .containItem tag why values with lineJobs := [], lineCmd := none }
        (∀ reason, parseAnswer cmd.station chars = some (.nak reason) →
          (cmd.command = .label → exec (.labelAnswer chars) s = refused .labelFault [1, cmd.station, reason]) ∧
          (cmd.command = .gate → exec (.gateAnswer chars) s = refused .labelFault [2, cmd.station, reason])) ∧
        (cmd.command = .label → parseAnswer cmd.station chars = some .ack →
          (s.loan tag = none → exec (.labelAnswer chars) s = refused .unknownLoan []) ∧
          (∀ l, s.loan tag = some l → l.state ≠ .written → l.state ≠ .picked →
            exec (.labelAnswer chars) s = refused .wrongState []) ∧
          (∀ l, s.loan tag = some l → l.state = .written ∨ l.state = .picked →
            ((s.bin r).state ≠ .open → exec (.labelAnswer chars) s = refused .binClosed []) ∧
            ((s.bin r).state = .open → s.station (s.gateStation r) = .offline →
              exec (.labelAnswer chars) s = refused .stationOffline []) ∧
            ((s.bin r).state = .open → s.station (s.gateStation r) ≠ .offline →
              exec (.labelAnswer chars) s = .next
                { s with
                  lineJobs := [{ kind := .contain tag, route := some r, stage := .gate }]
                  lineCmd := some
                    { command := .gate, station := s.gateStation r
                      chars := lineChars (s.gateStation r) .gate [BitVec.ofNat 8 (s.gateOutput r)], sent := 1
                      retries := none, phase := .sending } }))) ∧
        (cmd.command = .gate → parseAnswer cmd.station chars = some .ack →
          ((s.bin r).state ≠ .open → exec (.gateAnswer chars) s = refused .binClosed []) ∧
          ((s.bin r).state = .open → s.loan tag = none → exec (.gateAnswer chars) s = refused .unknownLoan []) ∧
          (∀ l, (s.bin r).state = .open → s.loan tag = some l → l.state = .written ∨ l.state = .picked →
            s.writeQueue.length < 128 →
            let m : Loan := { l with state := .bagged, route := some r, bay := none }
            let list := (s.bin r).list ++ [tag]
            let x : Bin :=
              { state := .open, list := list
                closeTimer := if s.closeTimeout r = 0 then none else some (s.now + 1000 * s.closeTimeout r) }
            let t := { (s.putLoan tag m).setBin r x with lineJobs := [], lineCmd := none }
            let u : WriteUnit := [.loan tag (some m), .bin r { state := .open, list := list }]
            (list.length < s.triggerLevel r → exec (.gateAnswer chars) s = .next (t.hand u)) ∧
            (s.triggerLevel r ≤ list.length → exec (.gateAnswer chars) s = .next (t.releaseBin r u))))) ∧
      (∀ a stage rest, s.lineJobs = { kind := .ping a, route := none, stage := stage } :: rest → cmd.command = .ping →
        cmd.station = a → (∃ v, parseAnswer a chars = some v) → s.station a ≠ .unused →
        let t := s.setStation a .online
        (rest = [] → exec (.pingAnswer chars) s = .next { t with lineJobs := [], lineCmd := none }) ∧
        (∀ a2 rest2, rest = { kind := .ping a2, route := none, stage := .waiting } :: rest2 →
          exec (.pingAnswer chars) s = .next
            { t with
              lineJobs := { kind := .ping a2, route := none, stage := .ping } :: rest2
              lineCmd := some
                { command := .ping, station := a2, chars := lineChars a2 .ping [], sent := 1, retries := none
                  phase := .sending } }) ∧
        (∀ tag, rest = [{ kind := .contain tag, route := none, stage := .waiting }] →
          let refused (why : Reason) (values : List Nat) : Host.Outcome State Fault Refusal :=
            .next { t.notifyRefused .fp .containItem tag why values with lineJobs := [], lineCmd := none }
          (s.loan tag = none → exec (.pingAnswer chars) s = refused .unknownLoan []) ∧
          (∀ l, s.loan tag = some l → l.state ≠ .written → l.state ≠ .picked →
            exec (.pingAnswer chars) s = refused .wrongState []) ∧
          (∀ l slot p, s.loan tag = some l → l.state = .written ∨ l.state = .picked →
            s.reader l.patron = some (slot, p) →
            ((s.bin p.route).state ≠ .open →
              exec (.pingAnswer chars) s = refused .binClosed [p.route.val, (s.bin p.route).state.number]) ∧
            ((s.bin p.route).state = .open → t.station s.labelStation = .offline →
              exec (.pingAnswer chars) s = refused .stationOffline [s.labelStation]) ∧
            ((s.bin p.route).state = .open → t.station s.labelStation ≠ .offline →
              exec (.pingAnswer chars) s = .next
                { t with
                  lineJobs := [{ kind := .contain tag, route := some p.route, stage := .label }]
                  lineCmd := some
                    { command := .label, station := s.labelStation
                      chars := lineChars s.labelStation .label
                        (labelData tag l.patron p.route l.medium (s.itemCount l) l.period)
                      sent := 1, retries := none, phase := .sending } })))))

/-- R132: the end of a command's characters begins its answer time, or the quiet time of a broadcast, which then ends the
job. R132, R134, R135, R140 and R142: an answer time that expires sends the command again up to the line retries; past
them the station goes OFFLINE with its notice and the job, a PING or the LABEL or GATE of a CONTAIN ITEM, ends refused
STATION_OFFLINE. R145, R146 and R51: a close timer's expiry releases the bin: all its loans MAILED today and due after
their periods, the bin CLOSED and empty, one unit, BAG RELEASED to both ports. An expiry moves the clock to its
deadline (the model's choice, log entry 3). -/
def Obligations.LineTimers : Prop :=
  (∀ (s : State) (cmd : LineSend), s.lineCmd = some cmd →
    (cmd.phase = .sending → cmd.command ≠ .gatesHome →
      exec .lineCommandEnd s = .next
        { s with
          lineCmd := some
            { cmd with
              phase := .awaiting (s.now + s.answerTime), retries := some (cmd.retries.getD s.lineRetries) } }) ∧
    (cmd.phase = .sending → cmd.command = .gatesHome →
      exec .lineCommandEnd s = .next { s with lineCmd := some { cmd with phase := .quiet (s.now + s.answerTime) } }) ∧
    (∀ limit j, cmd.phase = .quiet limit → s.lineJobs = [j] →
      exec .broadcastQuietEnd s = .next { s with now := max s.now limit, lineJobs := [], lineCmd := none }) ∧
    (∀ limit n, cmd.phase = .awaiting limit → cmd.retries = some n → cmd.sent ≤ n →
      exec .answerTimeExpiry s = .next
        { s with now := max s.now limit, lineCmd := some { cmd with sent := cmd.sent + 1, phase := .sending } }) ∧
    (∀ limit n a stage, cmd.phase = .awaiting limit → cmd.retries = some n → n < cmd.sent →
      s.lineJobs = [{ kind := .ping a, route := none, stage := stage }] → s.station cmd.station = .online →
      exec .answerTimeExpiry s = .next
        { ((s.setStation cmd.station .offline).notify .fp
              (note .stationOffline cmd.station [cmd.command.number, cmd.sent])).notifyRefused .fp .pingStation a
            .stationOffline [] with
          now := max s.now limit, lineJobs := [], lineCmd := none }) ∧
    (∀ limit n tag route stage, cmd.phase = .awaiting limit → cmd.retries = some n → n < cmd.sent →
      s.lineJobs = [{ kind := .contain tag, route := route, stage := stage }] → s.station cmd.station = .online →
      exec .answerTimeExpiry s = .next
        { ((s.setStation cmd.station .offline).notify .fp
              (note .stationOffline cmd.station [cmd.command.number, cmd.sent])).notifyRefused .fp .containItem tag
            .stationOffline (if cmd.command = .label then [cmd.station] else []) with
          now := max s.now limit, lineJobs := [], lineCmd := none })) ∧
  (∀ (s : State) (r : RouteNo) (limit : Nat) (held : List (Nat × Loan)), (s.bin r).closeTimer = some limit →
    (s.bin r).list = held.map (fun x => x.1) → (held.map (fun x => x.1)).Nodup →
    (∀ x ∈ held, s.loan x.1 = some x.2) → s.writeQueue.length < 128 →
    let mailed (l : Loan) : Loan :=
      { l with state := .mailed, shipDay := some s.dayCount, dueDay := some (min 65535 (s.dayCount + l.period)) }
    let n := note .bagReleased r.val
      [held.length, (held.head?.map (fun x => x.1)).getD 0, (held.getLast?.map (fun x => x.1)).getD 0]
    ∃ loans : Table Loan,
      (∀ x ∈ held, Table.find x.1 loans = some (mailed x.2)) ∧
      (∀ tag, tag ∉ held.map (fun x => x.1) → Table.find tag loans = s.loan tag) ∧
      exec (.closeTimerExpiry r) s = .next (State.notify .fp n (State.notify .cp n
        (({ s with now := max s.now limit, loans := loans }.setBin r
          { state := .closed, list := [], closeTimer := none }).hand
            (held.map (fun (x : Nat × Loan) => Change.loan x.1 (some (mailed x.2))) ++
              [Change.bin r { state := .closed, list := [] }])))))

/-! ### Returns station -/

/-- R154, R155 and R157 to R160, the sensor and the card: a rise in IDLE while READY begins a recognition; a fall before
SETTLED begins a gap and the rise that ends it is counted; a card of a MAILED or OVERDUE loan of its reader makes it
TAG_READ, any other fails it, as does a tag with no record or out of range, and NO_CARD leaves the read to be repeated;
a fall in SETTLED starts the clear timer, and a rise before its end is a false departure. A recognition that fails
keeps its counts until the next (log entry 31). -/
def Obligations.ReturnsSensorAndCard : Prop :=
  ∀ (s : State),
    (s.recog.stage = .idle → s.recog.presence = false → s.mode = .ready →
      exec .returnsPresenceRise s = .next
        { s with
          recog :=
            { Recognizer.idle true with
              stage := .sensed, readOutstanding := true, tagReadTimer := some (s.now + s.tagReadLimit)
              dwellTimer := some (s.now + s.dwellTime) } }) ∧
    (s.recog.stage = .sensed ∨ s.recog.stage = .tagRead → s.recog.presence = true →
      exec .returnsPresenceFall s = .next
        { s with
          recog :=
            { s.recog with
              presence := false, gapStart := s.now, dropoutTimer := some (s.now + s.dropoutLimit) } }) ∧
    (∀ limit, s.recog.presence = false → s.recog.dropoutTimer = some limit → s.now ≤ limit →
      let counted : Recognizer :=
        { s.recog with
          presence := true, dropoutTimer := none, gapCount := min 255 (s.recog.gapCount + 1)
          longestGap := max s.recog.longestGap (s.now - s.recog.gapStart) }
      (s.recog.stage = .sensed ∨ (s.recog.stage = .tagRead ∧ s.recog.dwellMet = false) →
        exec .returnsPresenceRise s = .next { s with recog := counted }) ∧
      (s.recog.stage = .tagRead → s.recog.dwellMet = true →
        exec .returnsPresenceRise s = .next
          { s with
            recog :=
              { counted with
                stage := .settled, dwellTimer := none, departureTimer := some (s.now + s.departureWindow) } })) ∧
    (s.recog.stage = .settled → s.recog.presence = true →
      exec .returnsPresenceFall s = .next
        { s with recog := { s.recog with presence := false, clearTimer := some (s.now + s.clearTime) } }) ∧
    (∀ limit, s.recog.stage = .settled → s.recog.presence = false → s.recog.clearTimer = some limit →
      exec .returnsPresenceRise s = .next
        { s with
          recog :=
            { s.recog with
              presence := true, clearTimer := none, falseDepartures := min 255 (s.recog.falseDepartures + 1) } }) ∧
    (∀ answer, s.recog.stage = .sensed → s.recog.readOutstanding = true → parseTagAnswer answer = .noCard →
      exec (.readTagAnswer answer) s = .next s) ∧
    (∀ answer tag patron, s.recog.stage = .sensed → s.recog.readOutstanding = true →
      parseTagAnswer answer = .card tag patron →
      (∀ l, 1 ≤ tag → tag ≤ 1048575 → s.loan tag = some l → l.patron = patron → l.state = .mailed ∨ l.state = .overdue →
        s.recog.dwellMet = false →
        exec (.readTagAnswer answer) s = .next
          { s with
            recog :=
              { s.recog with
                stage := .tagRead, readOutstanding := false, tagReadTimer := none, tag := some tag
                patron := some patron } }) ∧
      (∀ l, 1 ≤ tag → tag ≤ 1048575 → s.loan tag = some l →
        (l.patron ≠ patron ∨ (l.state ≠ .mailed ∧ l.state ≠ .overdue)) →
        exec (.readTagAnswer answer) s = .next (State.notify .fp
          (noteFor .returnUnread tag (if l.patron = patron then .notOut else .unknownTag)
            [Stage.sensed.number, s.recog.gapCount, s.recog.longestGap])
          { s with recog := s.recog.stop })) ∧
      (tag = 0 ∨ 1048575 < tag ∨ s.loan tag = none →
        exec (.readTagAnswer answer) s = .next (State.notify .fp
          (noteFor .returnUnread (if 1 ≤ tag ∧ tag ≤ 1048575 then tag else 0) .unknownTag
            [Stage.sensed.number, s.recog.gapCount, s.recog.longestGap])
          { s with recog := s.recog.stop })))

/-- R156 and R158 to R163, the five timers: the tag read timer fails the recognition NO_TAG; the dwell timer's end meets
dwell and, with a tag kept and no gap, makes it SETTLED; a gap that lasts fails it BOUNCE; the clear timer's end
accepts the return: the loan RETURNING, loans-out down and returns open up by 1, a trigger, RETURN ACCEPTED to both
ports, or fails it UNKNOWN_TAG or NOT_OUT; the departure window's end fails it STUCK. R162 and R163 give UNKNOWN_TAG for
no record; that a record which names another patron at the acceptance fails UNKNOWN_TAG too is the model's reading (log
entry 19). A recognition that fails or is accepted keeps its counts until the next (log entry 31). An expiry moves the clock to its deadline (the model's
choice, log entry 3). -/
def Obligations.ReturnsTimers : Prop :=
  ∀ (s : State) (limit : Nat),
    let failed (why : Reason) (stage : Stage) (tag : Nat) : Host.Outcome State Fault Refusal :=
      .next (State.notify .fp
        (noteFor .returnUnread tag why [stage.number, s.recog.gapCount, s.recog.longestGap])
        { s with now := max s.now limit, recog := s.recog.stop })
    (s.recog.stage = .sensed → s.recog.tag = none →
      (s.recog.tagReadTimer = some limit → exec .tagReadTimerExpiry s = failed .noTag .sensed 0) ∧
      (s.recog.dropoutTimer = some limit → exec .dropoutTimerExpiry s = failed .bounce .sensed 0) ∧
      (s.recog.dwellTimer = some limit →
        exec .dwellTimerExpiry s = .next
          { s with now := max s.now limit, recog := { s.recog with dwellMet := true, dwellTimer := none } })) ∧
    (s.recog.stage = .tagRead → s.recog.presence = true → s.recog.dropoutTimer = none →
      s.recog.dwellTimer = some limit →
      exec .dwellTimerExpiry s = .next
        { s with
          now := max s.now limit
          recog :=
            { s.recog with
              stage := .settled, dwellMet := true, dwellTimer := none, dropoutTimer := none
              departureTimer := some (max s.now limit + s.departureWindow) } }) ∧
    (∀ tag, s.recog.stage = .tagRead → s.recog.tag = some tag → 1 ≤ tag → tag ≤ 1048575 →
      s.recog.dropoutTimer = some limit → exec .dropoutTimerExpiry s = failed .bounce .tagRead tag) ∧
    (∀ tag, s.recog.stage = .settled → s.recog.tag = some tag → 1 ≤ tag → tag ≤ 1048575 →
      (s.recog.departureTimer = some limit → exec .departureTimerExpiry s = failed .stuck .settled tag) ∧
      (∀ l slot p, s.recog.clearTimer = some limit → s.recog.patron = some l.patron → s.loan tag = some l →
        s.writeQueue.length < 128 → s.reader l.patron = some (slot, p) →
        (l.state = .mailed ∨ l.state = .overdue →
          exec .clearTimerExpiry s = .next (State.notify .fp
            (note .returnAccepted tag
              [l.medium.number, s.recog.gapCount, s.recog.longestGap, s.recog.falseDepartures])
            (State.notify .cp (note .returnAccepted tag [l.patron])
              (State.trigger
                ((({ s with now := max s.now limit, recog := s.recog.stop }).saveLoan tag
                  { l with state := .returning }).putPatron slot
                    { p with loansOut := p.loansOut - 1, returnsOpen := p.returnsOpen + 1 }))))) ∧
        (l.state ≠ .mailed → l.state ≠ .overdue → exec .clearTimerExpiry s = failed .notOut .accepted tag)) ∧
      (∀ patron, s.recog.clearTimer = some limit → s.recog.patron = some patron →
        (∀ l, s.loan tag = some l → l.patron ≠ patron) →
        exec .clearTimerExpiry s = failed .unknownTag .accepted tag))

/-! ### Whole-machine statements -/

/-- Section 11.1: a request command that is well formed, written out as the bytes of its frame, is read back as itself on
the same port, with every code, key and payload. -/
def Obligations.FrameRoundTrip : Prop :=
  ∀ (i : Instr) (p : Port) (atOnce : Bool) (bytes : List Byte), i.wellFormed = true →
    encodeFrame i = some (p, atOnce, bytes) → decodeFrame p atOnce bytes = some i

/-- Every step keeps the canonical forms of the model, from every state that has them: the title store's content in rising
block order with no block that reads as unwritten (the model's form of R9 and R12's store, log entry 10), and every
keyed table of the part and of record memory in rising key order, each key once. -/
def Obligations.CanonicalFormsKept : Prop :=
  (∀ s t : State, s.storeCanonical → step s = .next t → t.storeCanonical) ∧
  ∀ s t : State, s.tablesSorted → step s = .next t → t.tablesSorted

/-- R171, R174 and R178: from every state in which both ports hold at most 32 posted requests, 8 delayed entries with no
two alike, and 64 notices, every step leaves such a state. -/
def Obligations.PortsBoundedKept : Prop :=
  ∀ s t : State, s.portsBounded → step s = .next t → t.portsBounded

/-- The invariants of this file hold at part reset (R184). -/
def Obligations.ResetInvariants : Prop :=
  State.reset.storeCanonical ∧ State.reset.portsBounded ∧ State.reset.tablesSorted
end

