-- ==== Sys2Proof/Laws/State.lean ====
section
/-! SUPPORT. One lemma per field of State for each of the named updates, so that no later proof unfolds a record
update. -/

namespace Sys2Proof.Machine

variable (s : State)

/-! ### setPort -/

@[simp] theorem State.setPort_pending (p : Port) (u : PortUnit) : (s.setPort p u).pending = s.pending := by cases p <;> rfl
@[simp] theorem State.setPort_now (p : Port) (u : PortUnit) : (s.setPort p u).now = s.now := by cases p <;> rfl
@[simp] theorem State.setPort_dayCount (p : Port) (u : PortUnit) : (s.setPort p u).dayCount = s.dayCount := by cases p <;> rfl
@[simp] theorem State.setPort_mode (p : Port) (u : PortUnit) : (s.setPort p u).mode = s.mode := by cases p <;> rfl
@[simp] theorem State.setPort_startup (p : Port) (u : PortUnit) : (s.setPort p u).startup = s.startup := by cases p <;> rfl
@[simp] theorem State.setPort_returned (p : Port) (u : PortUnit) : (s.setPort p u).returned = s.returned := by cases p <;> rfl
@[simp] theorem State.setPort_mem (p : Port) (u : PortUnit) : (s.setPort p u).mem = s.mem := by cases p <;> rfl
@[simp] theorem State.setPort_writeQueue (p : Port) (u : PortUnit) : (s.setPort p u).writeQueue = s.writeQueue := by cases p <;> rfl
@[simp] theorem State.setPort_writeDeadline (p : Port) (u : PortUnit) : (s.setPort p u).writeDeadline = s.writeDeadline := by cases p <;> rfl
@[simp] theorem State.setPort_waiting (p : Port) (u : PortUnit) : (s.setPort p u).waiting = s.waiting := by cases p <;> rfl
@[simp] theorem State.setPort_settings (p : Port) (u : PortUnit) : (s.setPort p u).settings = s.settings := by cases p <;> rfl
@[simp] theorem State.setPort_scan (p : Port) (u : PortUnit) : (s.setPort p u).scan = s.scan := by cases p <;> rfl
@[simp] theorem State.setPort_titles (p : Port) (u : PortUnit) : (s.setPort p u).titles = s.titles := by cases p <;> rfl
@[simp] theorem State.setPort_freeMap (p : Port) (u : PortUnit) : (s.setPort p u).freeMap = s.freeMap := by cases p <;> rfl
@[simp] theorem State.setPort_store (p : Port) (u : PortUnit) : (s.setPort p u).store = s.store := by cases p <;> rfl
@[simp] theorem State.setPort_grant (p : Port) (u : PortUnit) : (s.setPort p u).grant = s.grant := by cases p <;> rfl
@[simp] theorem State.setPort_searchFrom (p : Port) (u : PortUnit) : (s.setPort p u).searchFrom = s.searchFrom := by cases p <;> rfl
@[simp] theorem State.setPort_stagingWriter (p : Port) (u : PortUnit) : (s.setPort p u).stagingWriter = s.stagingWriter := by cases p <;> rfl
@[simp] theorem State.setPort_walk (p : Port) (u : PortUnit) : (s.setPort p u).walk = s.walk := by cases p <;> rfl
@[simp] theorem State.setPort_patrons (p : Port) (u : PortUnit) : (s.setPort p u).patrons = s.patrons := by cases p <;> rfl
@[simp] theorem State.setPort_decreases (p : Port) (u : PortUnit) : (s.setPort p u).decreases = s.decreases := by cases p <;> rfl
@[simp] theorem State.setPort_restorations (p : Port) (u : PortUnit) : (s.setPort p u).restorations = s.restorations := by cases p <;> rfl
@[simp] theorem State.setPort_loans (p : Port) (u : PortUnit) : (s.setPort p u).loans = s.loans := by cases p <;> rfl
@[simp] theorem State.setPort_nextTag (p : Port) (u : PortUnit) : (s.setPort p u).nextTag = s.nextTag := by cases p <;> rfl
@[simp] theorem State.setPort_engine (p : Port) (u : PortUnit) : (s.setPort p u).engine = s.engine := by cases p <;> rfl
@[simp] theorem State.setPort_copyQueue (p : Port) (u : PortUnit) : (s.setPort p u).copyQueue = s.copyQueue := by cases p <;> rfl
@[simp] theorem State.setPort_chanA (p : Port) (u : PortUnit) : (s.setPort p u).chanA = s.chanA := by cases p <;> rfl
@[simp] theorem State.setPort_chanB (p : Port) (u : PortUnit) : (s.setPort p u).chanB = s.chanB := by cases p <;> rfl
@[simp] theorem State.setPort_bays (p : Port) (u : PortUnit) : (s.setPort p u).bays = s.bays := by cases p <;> rfl
@[simp] theorem State.setPort_lamp (p : Port) (u : PortUnit) : (s.setPort p u).lamp = s.lamp := by cases p <;> rfl
@[simp] theorem State.setPort_lineJobs (p : Port) (u : PortUnit) : (s.setPort p u).lineJobs = s.lineJobs := by cases p <;> rfl
@[simp] theorem State.setPort_lineCmd (p : Port) (u : PortUnit) : (s.setPort p u).lineCmd = s.lineCmd := by cases p <;> rfl
@[simp] theorem State.setPort_stations (p : Port) (u : PortUnit) : (s.setPort p u).stations = s.stations := by cases p <;> rfl
@[simp] theorem State.setPort_bins (p : Port) (u : PortUnit) : (s.setPort p u).bins = s.bins := by cases p <;> rfl
@[simp] theorem State.setPort_recog (p : Port) (u : PortUnit) : (s.setPort p u).recog = s.recog := by cases p <;> rfl

/-! ### setChan -/

@[simp] theorem State.setChan_pending (c : Chan) (x : Channel) : (s.setChan c x).pending = s.pending := by cases c <;> rfl
@[simp] theorem State.setChan_now (c : Chan) (x : Channel) : (s.setChan c x).now = s.now := by cases c <;> rfl
@[simp] theorem State.setChan_dayCount (c : Chan) (x : Channel) : (s.setChan c x).dayCount = s.dayCount := by cases c <;> rfl
@[simp] theorem State.setChan_mode (c : Chan) (x : Channel) : (s.setChan c x).mode = s.mode := by cases c <;> rfl
@[simp] theorem State.setChan_startup (c : Chan) (x : Channel) : (s.setChan c x).startup = s.startup := by cases c <;> rfl
@[simp] theorem State.setChan_returned (c : Chan) (x : Channel) : (s.setChan c x).returned = s.returned := by cases c <;> rfl
@[simp] theorem State.setChan_mem (c : Chan) (x : Channel) : (s.setChan c x).mem = s.mem := by cases c <;> rfl
@[simp] theorem State.setChan_writeQueue (c : Chan) (x : Channel) : (s.setChan c x).writeQueue = s.writeQueue := by cases c <;> rfl
@[simp] theorem State.setChan_writeDeadline (c : Chan) (x : Channel) : (s.setChan c x).writeDeadline = s.writeDeadline := by cases c <;> rfl
@[simp] theorem State.setChan_waiting (c : Chan) (x : Channel) : (s.setChan c x).waiting = s.waiting := by cases c <;> rfl
@[simp] theorem State.setChan_settings (c : Chan) (x : Channel) : (s.setChan c x).settings = s.settings := by cases c <;> rfl
@[simp] theorem State.setChan_scan (c : Chan) (x : Channel) : (s.setChan c x).scan = s.scan := by cases c <;> rfl
@[simp] theorem State.setChan_titles (c : Chan) (x : Channel) : (s.setChan c x).titles = s.titles := by cases c <;> rfl
@[simp] theorem State.setChan_freeMap (c : Chan) (x : Channel) : (s.setChan c x).freeMap = s.freeMap := by cases c <;> rfl
@[simp] theorem State.setChan_store (c : Chan) (x : Channel) : (s.setChan c x).store = s.store := by cases c <;> rfl
@[simp] theorem State.setChan_grant (c : Chan) (x : Channel) : (s.setChan c x).grant = s.grant := by cases c <;> rfl
@[simp] theorem State.setChan_searchFrom (c : Chan) (x : Channel) : (s.setChan c x).searchFrom = s.searchFrom := by cases c <;> rfl
@[simp] theorem State.setChan_stagingWriter (c : Chan) (x : Channel) : (s.setChan c x).stagingWriter = s.stagingWriter := by cases c <;> rfl
@[simp] theorem State.setChan_walk (c : Chan) (x : Channel) : (s.setChan c x).walk = s.walk := by cases c <;> rfl
@[simp] theorem State.setChan_patrons (c : Chan) (x : Channel) : (s.setChan c x).patrons = s.patrons := by cases c <;> rfl
@[simp] theorem State.setChan_decreases (c : Chan) (x : Channel) : (s.setChan c x).decreases = s.decreases := by cases c <;> rfl
@[simp] theorem State.setChan_restorations (c : Chan) (x : Channel) : (s.setChan c x).restorations = s.restorations := by cases c <;> rfl
@[simp] theorem State.setChan_loans (c : Chan) (x : Channel) : (s.setChan c x).loans = s.loans := by cases c <;> rfl
@[simp] theorem State.setChan_nextTag (c : Chan) (x : Channel) : (s.setChan c x).nextTag = s.nextTag := by cases c <;> rfl
@[simp] theorem State.setChan_engine (c : Chan) (x : Channel) : (s.setChan c x).engine = s.engine := by cases c <;> rfl
@[simp] theorem State.setChan_copyQueue (c : Chan) (x : Channel) : (s.setChan c x).copyQueue = s.copyQueue := by cases c <;> rfl
@[simp] theorem State.setChan_bays (c : Chan) (x : Channel) : (s.setChan c x).bays = s.bays := by cases c <;> rfl
@[simp] theorem State.setChan_lamp (c : Chan) (x : Channel) : (s.setChan c x).lamp = s.lamp := by cases c <;> rfl
@[simp] theorem State.setChan_lineJobs (c : Chan) (x : Channel) : (s.setChan c x).lineJobs = s.lineJobs := by cases c <;> rfl
@[simp] theorem State.setChan_lineCmd (c : Chan) (x : Channel) : (s.setChan c x).lineCmd = s.lineCmd := by cases c <;> rfl
@[simp] theorem State.setChan_stations (c : Chan) (x : Channel) : (s.setChan c x).stations = s.stations := by cases c <;> rfl
@[simp] theorem State.setChan_bins (c : Chan) (x : Channel) : (s.setChan c x).bins = s.bins := by cases c <;> rfl
@[simp] theorem State.setChan_recog (c : Chan) (x : Channel) : (s.setChan c x).recog = s.recog := by cases c <;> rfl
@[simp] theorem State.setChan_cp (c : Chan) (x : Channel) : (s.setChan c x).cp = s.cp := by cases c <;> rfl
@[simp] theorem State.setChan_fp (c : Chan) (x : Channel) : (s.setChan c x).fp = s.fp := by cases c <;> rfl

/-! ### setBay -/

@[simp] theorem State.setBay_pending (b : BayNo) (x : Bay) : (s.setBay b x).pending = s.pending := rfl
@[simp] theorem State.setBay_now (b : BayNo) (x : Bay) : (s.setBay b x).now = s.now := rfl
@[simp] theorem State.setBay_dayCount (b : BayNo) (x : Bay) : (s.setBay b x).dayCount = s.dayCount := rfl
@[simp] theorem State.setBay_mode (b : BayNo) (x : Bay) : (s.setBay b x).mode = s.mode := rfl
@[simp] theorem State.setBay_startup (b : BayNo) (x : Bay) : (s.setBay b x).startup = s.startup := rfl
@[simp] theorem State.setBay_returned (b : BayNo) (x : Bay) : (s.setBay b x).returned = s.returned := rfl
@[simp] theorem State.setBay_mem (b : BayNo) (x : Bay) : (s.setBay b x).mem = s.mem := rfl
@[simp] theorem State.setBay_writeQueue (b : BayNo) (x : Bay) : (s.setBay b x).writeQueue = s.writeQueue := rfl
@[simp] theorem State.setBay_writeDeadline (b : BayNo) (x : Bay) : (s.setBay b x).writeDeadline = s.writeDeadline := rfl
@[simp] theorem State.setBay_waiting (b : BayNo) (x : Bay) : (s.setBay b x).waiting = s.waiting := rfl
@[simp] theorem State.setBay_settings (b : BayNo) (x : Bay) : (s.setBay b x).settings = s.settings := rfl
@[simp] theorem State.setBay_scan (b : BayNo) (x : Bay) : (s.setBay b x).scan = s.scan := rfl
@[simp] theorem State.setBay_titles (b : BayNo) (x : Bay) : (s.setBay b x).titles = s.titles := rfl
@[simp] theorem State.setBay_freeMap (b : BayNo) (x : Bay) : (s.setBay b x).freeMap = s.freeMap := rfl
@[simp] theorem State.setBay_store (b : BayNo) (x : Bay) : (s.setBay b x).store = s.store := rfl
@[simp] theorem State.setBay_grant (b : BayNo) (x : Bay) : (s.setBay b x).grant = s.grant := rfl
@[simp] theorem State.setBay_searchFrom (b : BayNo) (x : Bay) : (s.setBay b x).searchFrom = s.searchFrom := rfl
@[simp] theorem State.setBay_stagingWriter (b : BayNo) (x : Bay) : (s.setBay b x).stagingWriter = s.stagingWriter := rfl
@[simp] theorem State.setBay_walk (b : BayNo) (x : Bay) : (s.setBay b x).walk = s.walk := rfl
@[simp] theorem State.setBay_patrons (b : BayNo) (x : Bay) : (s.setBay b x).patrons = s.patrons := rfl
@[simp] theorem State.setBay_decreases (b : BayNo) (x : Bay) : (s.setBay b x).decreases = s.decreases := rfl
@[simp] theorem State.setBay_restorations (b : BayNo) (x : Bay) : (s.setBay b x).restorations = s.restorations := rfl
@[simp] theorem State.setBay_loans (b : BayNo) (x : Bay) : (s.setBay b x).loans = s.loans := rfl
@[simp] theorem State.setBay_nextTag (b : BayNo) (x : Bay) : (s.setBay b x).nextTag = s.nextTag := rfl
@[simp] theorem State.setBay_engine (b : BayNo) (x : Bay) : (s.setBay b x).engine = s.engine := rfl
@[simp] theorem State.setBay_copyQueue (b : BayNo) (x : Bay) : (s.setBay b x).copyQueue = s.copyQueue := rfl
@[simp] theorem State.setBay_chanA (b : BayNo) (x : Bay) : (s.setBay b x).chanA = s.chanA := rfl
@[simp] theorem State.setBay_chanB (b : BayNo) (x : Bay) : (s.setBay b x).chanB = s.chanB := rfl
@[simp] theorem State.setBay_bays (b : BayNo) (x : Bay) : (s.setBay b x).bays = s.bays.set b x := rfl
@[simp] theorem State.setBay_lamp (b : BayNo) (x : Bay) : (s.setBay b x).lamp = s.lamp := rfl
@[simp] theorem State.setBay_lineJobs (b : BayNo) (x : Bay) : (s.setBay b x).lineJobs = s.lineJobs := rfl
@[simp] theorem State.setBay_lineCmd (b : BayNo) (x : Bay) : (s.setBay b x).lineCmd = s.lineCmd := rfl
@[simp] theorem State.setBay_stations (b : BayNo) (x : Bay) : (s.setBay b x).stations = s.stations := rfl
@[simp] theorem State.setBay_bins (b : BayNo) (x : Bay) : (s.setBay b x).bins = s.bins := rfl
@[simp] theorem State.setBay_recog (b : BayNo) (x : Bay) : (s.setBay b x).recog = s.recog := rfl
@[simp] theorem State.setBay_cp (b : BayNo) (x : Bay) : (s.setBay b x).cp = s.cp := rfl
@[simp] theorem State.setBay_fp (b : BayNo) (x : Bay) : (s.setBay b x).fp = s.fp := rfl

/-! ### setBin -/

@[simp] theorem State.setBin_pending (r : RouteNo) (x : Bin) : (s.setBin r x).pending = s.pending := rfl
@[simp] theorem State.setBin_now (r : RouteNo) (x : Bin) : (s.setBin r x).now = s.now := rfl
@[simp] theorem State.setBin_dayCount (r : RouteNo) (x : Bin) : (s.setBin r x).dayCount = s.dayCount := rfl
@[simp] theorem State.setBin_mode (r : RouteNo) (x : Bin) : (s.setBin r x).mode = s.mode := rfl
@[simp] theorem State.setBin_startup (r : RouteNo) (x : Bin) : (s.setBin r x).startup = s.startup := rfl
@[simp] theorem State.setBin_returned (r : RouteNo) (x : Bin) : (s.setBin r x).returned = s.returned := rfl
@[simp] theorem State.setBin_mem (r : RouteNo) (x : Bin) : (s.setBin r x).mem = s.mem := rfl
@[simp] theorem State.setBin_writeQueue (r : RouteNo) (x : Bin) : (s.setBin r x).writeQueue = s.writeQueue := rfl
@[simp] theorem State.setBin_writeDeadline (r : RouteNo) (x : Bin) : (s.setBin r x).writeDeadline = s.writeDeadline := rfl
@[simp] theorem State.setBin_waiting (r : RouteNo) (x : Bin) : (s.setBin r x).waiting = s.waiting := rfl
@[simp] theorem State.setBin_settings (r : RouteNo) (x : Bin) : (s.setBin r x).settings = s.settings := rfl
@[simp] theorem State.setBin_scan (r : RouteNo) (x : Bin) : (s.setBin r x).scan = s.scan := rfl
@[simp] theorem State.setBin_titles (r : RouteNo) (x : Bin) : (s.setBin r x).titles = s.titles := rfl
@[simp] theorem State.setBin_freeMap (r : RouteNo) (x : Bin) : (s.setBin r x).freeMap = s.freeMap := rfl
@[simp] theorem State.setBin_store (r : RouteNo) (x : Bin) : (s.setBin r x).store = s.store := rfl
@[simp] theorem State.setBin_grant (r : RouteNo) (x : Bin) : (s.setBin r x).grant = s.grant := rfl
@[simp] theorem State.setBin_searchFrom (r : RouteNo) (x : Bin) : (s.setBin r x).searchFrom = s.searchFrom := rfl
@[simp] theorem State.setBin_stagingWriter (r : RouteNo) (x : Bin) : (s.setBin r x).stagingWriter = s.stagingWriter := rfl
@[simp] theorem State.setBin_walk (r : RouteNo) (x : Bin) : (s.setBin r x).walk = s.walk := rfl
@[simp] theorem State.setBin_patrons (r : RouteNo) (x : Bin) : (s.setBin r x).patrons = s.patrons := rfl
@[simp] theorem State.setBin_decreases (r : RouteNo) (x : Bin) : (s.setBin r x).decreases = s.decreases := rfl
@[simp] theorem State.setBin_restorations (r : RouteNo) (x : Bin) : (s.setBin r x).restorations = s.restorations := rfl
@[simp] theorem State.setBin_loans (r : RouteNo) (x : Bin) : (s.setBin r x).loans = s.loans := rfl
@[simp] theorem State.setBin_nextTag (r : RouteNo) (x : Bin) : (s.setBin r x).nextTag = s.nextTag := rfl
@[simp] theorem State.setBin_engine (r : RouteNo) (x : Bin) : (s.setBin r x).engine = s.engine := rfl
@[simp] theorem State.setBin_copyQueue (r : RouteNo) (x : Bin) : (s.setBin r x).copyQueue = s.copyQueue := rfl
@[simp] theorem State.setBin_chanA (r : RouteNo) (x : Bin) : (s.setBin r x).chanA = s.chanA := rfl
@[simp] theorem State.setBin_chanB (r : RouteNo) (x : Bin) : (s.setBin r x).chanB = s.chanB := rfl
@[simp] theorem State.setBin_bays (r : RouteNo) (x : Bin) : (s.setBin r x).bays = s.bays := rfl
@[simp] theorem State.setBin_lamp (r : RouteNo) (x : Bin) : (s.setBin r x).lamp = s.lamp := rfl
@[simp] theorem State.setBin_lineJobs (r : RouteNo) (x : Bin) : (s.setBin r x).lineJobs = s.lineJobs := rfl
@[simp] theorem State.setBin_lineCmd (r : RouteNo) (x : Bin) : (s.setBin r x).lineCmd = s.lineCmd := rfl
@[simp] theorem State.setBin_stations (r : RouteNo) (x : Bin) : (s.setBin r x).stations = s.stations := rfl
@[simp] theorem State.setBin_bins (r : RouteNo) (x : Bin) : (s.setBin r x).bins = s.bins.set r x := rfl
@[simp] theorem State.setBin_recog (r : RouteNo) (x : Bin) : (s.setBin r x).recog = s.recog := rfl
@[simp] theorem State.setBin_cp (r : RouteNo) (x : Bin) : (s.setBin r x).cp = s.cp := rfl
@[simp] theorem State.setBin_fp (r : RouteNo) (x : Bin) : (s.setBin r x).fp = s.fp := rfl

/-! ### setStation -/

@[simp] theorem State.setStation_pending (a : Nat) (x : StationState) : (s.setStation a x).pending = s.pending := by
  unfold State.setStation; split <;> rfl
@[simp] theorem State.setStation_now (a : Nat) (x : StationState) : (s.setStation a x).now = s.now := by
  unfold State.setStation; split <;> rfl
@[simp] theorem State.setStation_dayCount (a : Nat) (x : StationState) : (s.setStation a x).dayCount = s.dayCount := by
  unfold State.setStation; split <;> rfl
@[simp] theorem State.setStation_mode (a : Nat) (x : StationState) : (s.setStation a x).mode = s.mode := by
  unfold State.setStation; split <;> rfl
@[simp] theorem State.setStation_startup (a : Nat) (x : StationState) : (s.setStation a x).startup = s.startup := by
  unfold State.setStation; split <;> rfl
@[simp] theorem State.setStation_returned (a : Nat) (x : StationState) : (s.setStation a x).returned = s.returned := by
  unfold State.setStation; split <;> rfl
@[simp] theorem State.setStation_mem (a : Nat) (x : StationState) : (s.setStation a x).mem = s.mem := by
  unfold State.setStation; split <;> rfl
@[simp] theorem State.setStation_writeQueue (a : Nat) (x : StationState) : (s.setStation a x).writeQueue = s.writeQueue := by
  unfold State.setStation; split <;> rfl
@[simp] theorem State.setStation_writeDeadline (a : Nat) (x : StationState) : (s.setStation a x).writeDeadline = s.writeDeadline := by
  unfold State.setStation; split <;> rfl
@[simp] theorem State.setStation_waiting (a : Nat) (x : StationState) : (s.setStation a x).waiting = s.waiting := by
  unfold State.setStation; split <;> rfl
@[simp] theorem State.setStation_settings (a : Nat) (x : StationState) : (s.setStation a x).settings = s.settings := by
  unfold State.setStation; split <;> rfl
@[simp] theorem State.setStation_scan (a : Nat) (x : StationState) : (s.setStation a x).scan = s.scan := by
  unfold State.setStation; split <;> rfl
@[simp] theorem State.setStation_titles (a : Nat) (x : StationState) : (s.setStation a x).titles = s.titles := by
  unfold State.setStation; split <;> rfl
@[simp] theorem State.setStation_freeMap (a : Nat) (x : StationState) : (s.setStation a x).freeMap = s.freeMap := by
  unfold State.setStation; split <;> rfl
@[simp] theorem State.setStation_store (a : Nat) (x : StationState) : (s.setStation a x).store = s.store := by
  unfold State.setStation; split <;> rfl
@[simp] theorem State.setStation_grant (a : Nat) (x : StationState) : (s.setStation a x).grant = s.grant := by
  unfold State.setStation; split <;> rfl
@[simp] theorem State.setStation_searchFrom (a : Nat) (x : StationState) : (s.setStation a x).searchFrom = s.searchFrom := by
  unfold State.setStation; split <;> rfl
@[simp] theorem State.setStation_stagingWriter (a : Nat) (x : StationState) : (s.setStation a x).stagingWriter = s.stagingWriter := by
  unfold State.setStation; split <;> rfl
@[simp] theorem State.setStation_walk (a : Nat) (x : StationState) : (s.setStation a x).walk = s.walk := by
  unfold State.setStation; split <;> rfl
@[simp] theorem State.setStation_patrons (a : Nat) (x : StationState) : (s.setStation a x).patrons = s.patrons := by
  unfold State.setStation; split <;> rfl
@[simp] theorem State.setStation_decreases (a : Nat) (x : StationState) : (s.setStation a x).decreases = s.decreases := by
  unfold State.setStation; split <;> rfl
@[simp] theorem State.setStation_restorations (a : Nat) (x : StationState) : (s.setStation a x).restorations = s.restorations := by
  unfold State.setStation; split <;> rfl
@[simp] theorem State.setStation_loans (a : Nat) (x : StationState) : (s.setStation a x).loans = s.loans := by
  unfold State.setStation; split <;> rfl
@[simp] theorem State.setStation_nextTag (a : Nat) (x : StationState) : (s.setStation a x).nextTag = s.nextTag := by
  unfold State.setStation; split <;> rfl
@[simp] theorem State.setStation_engine (a : Nat) (x : StationState) : (s.setStation a x).engine = s.engine := by
  unfold State.setStation; split <;> rfl
@[simp] theorem State.setStation_copyQueue (a : Nat) (x : StationState) : (s.setStation a x).copyQueue = s.copyQueue := by
  unfold State.setStation; split <;> rfl
@[simp] theorem State.setStation_chanA (a : Nat) (x : StationState) : (s.setStation a x).chanA = s.chanA := by
  unfold State.setStation; split <;> rfl
@[simp] theorem State.setStation_chanB (a : Nat) (x : StationState) : (s.setStation a x).chanB = s.chanB := by
  unfold State.setStation; split <;> rfl
@[simp] theorem State.setStation_bays (a : Nat) (x : StationState) : (s.setStation a x).bays = s.bays := by
  unfold State.setStation; split <;> rfl
@[simp] theorem State.setStation_lamp (a : Nat) (x : StationState) : (s.setStation a x).lamp = s.lamp := by
  unfold State.setStation; split <;> rfl
@[simp] theorem State.setStation_lineJobs (a : Nat) (x : StationState) : (s.setStation a x).lineJobs = s.lineJobs := by
  unfold State.setStation; split <;> rfl
@[simp] theorem State.setStation_lineCmd (a : Nat) (x : StationState) : (s.setStation a x).lineCmd = s.lineCmd := by
  unfold State.setStation; split <;> rfl
@[simp] theorem State.setStation_bins (a : Nat) (x : StationState) : (s.setStation a x).bins = s.bins := by
  unfold State.setStation; split <;> rfl
@[simp] theorem State.setStation_recog (a : Nat) (x : StationState) : (s.setStation a x).recog = s.recog := by
  unfold State.setStation; split <;> rfl
@[simp] theorem State.setStation_cp (a : Nat) (x : StationState) : (s.setStation a x).cp = s.cp := by
  unfold State.setStation; split <;> rfl
@[simp] theorem State.setStation_fp (a : Nat) (x : StationState) : (s.setStation a x).fp = s.fp := by
  unfold State.setStation; split <;> rfl

/-! ### putTitle -/

@[simp] theorem State.putTitle_pending (n : Nat) (t : Title) : (s.putTitle n t).pending = s.pending := rfl
@[simp] theorem State.putTitle_now (n : Nat) (t : Title) : (s.putTitle n t).now = s.now := rfl
@[simp] theorem State.putTitle_dayCount (n : Nat) (t : Title) : (s.putTitle n t).dayCount = s.dayCount := rfl
@[simp] theorem State.putTitle_mode (n : Nat) (t : Title) : (s.putTitle n t).mode = s.mode := rfl
@[simp] theorem State.putTitle_startup (n : Nat) (t : Title) : (s.putTitle n t).startup = s.startup := rfl
@[simp] theorem State.putTitle_returned (n : Nat) (t : Title) : (s.putTitle n t).returned = s.returned := rfl
@[simp] theorem State.putTitle_mem (n : Nat) (t : Title) : (s.putTitle n t).mem = s.mem := rfl
@[simp] theorem State.putTitle_writeQueue (n : Nat) (t : Title) : (s.putTitle n t).writeQueue = s.writeQueue := rfl
@[simp] theorem State.putTitle_writeDeadline (n : Nat) (t : Title) : (s.putTitle n t).writeDeadline = s.writeDeadline := rfl
@[simp] theorem State.putTitle_waiting (n : Nat) (t : Title) : (s.putTitle n t).waiting = s.waiting := rfl
@[simp] theorem State.putTitle_settings (n : Nat) (t : Title) : (s.putTitle n t).settings = s.settings := rfl
@[simp] theorem State.putTitle_scan (n : Nat) (t : Title) : (s.putTitle n t).scan = s.scan := rfl
@[simp] theorem State.putTitle_titles (n : Nat) (t : Title) : (s.putTitle n t).titles = Table.set n t s.titles := rfl
@[simp] theorem State.putTitle_freeMap (n : Nat) (t : Title) : (s.putTitle n t).freeMap = s.freeMap := rfl
@[simp] theorem State.putTitle_store (n : Nat) (t : Title) : (s.putTitle n t).store = s.store := rfl
@[simp] theorem State.putTitle_grant (n : Nat) (t : Title) : (s.putTitle n t).grant = s.grant := rfl
@[simp] theorem State.putTitle_searchFrom (n : Nat) (t : Title) : (s.putTitle n t).searchFrom = s.searchFrom := rfl
@[simp] theorem State.putTitle_stagingWriter (n : Nat) (t : Title) : (s.putTitle n t).stagingWriter = s.stagingWriter := rfl
@[simp] theorem State.putTitle_walk (n : Nat) (t : Title) : (s.putTitle n t).walk = s.walk := rfl
@[simp] theorem State.putTitle_patrons (n : Nat) (t : Title) : (s.putTitle n t).patrons = s.patrons := rfl
@[simp] theorem State.putTitle_decreases (n : Nat) (t : Title) : (s.putTitle n t).decreases = s.decreases := rfl
@[simp] theorem State.putTitle_restorations (n : Nat) (t : Title) : (s.putTitle n t).restorations = s.restorations := rfl
@[simp] theorem State.putTitle_loans (n : Nat) (t : Title) : (s.putTitle n t).loans = s.loans := rfl
@[simp] theorem State.putTitle_nextTag (n : Nat) (t : Title) : (s.putTitle n t).nextTag = s.nextTag := rfl
@[simp] theorem State.putTitle_engine (n : Nat) (t : Title) : (s.putTitle n t).engine = s.engine := rfl
@[simp] theorem State.putTitle_copyQueue (n : Nat) (t : Title) : (s.putTitle n t).copyQueue = s.copyQueue := rfl
@[simp] theorem State.putTitle_chanA (n : Nat) (t : Title) : (s.putTitle n t).chanA = s.chanA := rfl
@[simp] theorem State.putTitle_chanB (n : Nat) (t : Title) : (s.putTitle n t).chanB = s.chanB := rfl
@[simp] theorem State.putTitle_bays (n : Nat) (t : Title) : (s.putTitle n t).bays = s.bays := rfl
@[simp] theorem State.putTitle_lamp (n : Nat) (t : Title) : (s.putTitle n t).lamp = s.lamp := rfl
@[simp] theorem State.putTitle_lineJobs (n : Nat) (t : Title) : (s.putTitle n t).lineJobs = s.lineJobs := rfl
@[simp] theorem State.putTitle_lineCmd (n : Nat) (t : Title) : (s.putTitle n t).lineCmd = s.lineCmd := rfl
@[simp] theorem State.putTitle_stations (n : Nat) (t : Title) : (s.putTitle n t).stations = s.stations := rfl
@[simp] theorem State.putTitle_bins (n : Nat) (t : Title) : (s.putTitle n t).bins = s.bins := rfl
@[simp] theorem State.putTitle_recog (n : Nat) (t : Title) : (s.putTitle n t).recog = s.recog := rfl
@[simp] theorem State.putTitle_cp (n : Nat) (t : Title) : (s.putTitle n t).cp = s.cp := rfl
@[simp] theorem State.putTitle_fp (n : Nat) (t : Title) : (s.putTitle n t).fp = s.fp := rfl

/-! ### putLoan -/

@[simp] theorem State.putLoan_pending (tag : Nat) (l : Loan) : (s.putLoan tag l).pending = s.pending := rfl
@[simp] theorem State.putLoan_now (tag : Nat) (l : Loan) : (s.putLoan tag l).now = s.now := rfl
@[simp] theorem State.putLoan_dayCount (tag : Nat) (l : Loan) : (s.putLoan tag l).dayCount = s.dayCount := rfl
@[simp] theorem State.putLoan_mode (tag : Nat) (l : Loan) : (s.putLoan tag l).mode = s.mode := rfl
@[simp] theorem State.putLoan_startup (tag : Nat) (l : Loan) : (s.putLoan tag l).startup = s.startup := rfl
@[simp] theorem State.putLoan_returned (tag : Nat) (l : Loan) : (s.putLoan tag l).returned = s.returned := rfl
@[simp] theorem State.putLoan_mem (tag : Nat) (l : Loan) : (s.putLoan tag l).mem = s.mem := rfl
@[simp] theorem State.putLoan_writeQueue (tag : Nat) (l : Loan) : (s.putLoan tag l).writeQueue = s.writeQueue := rfl
@[simp] theorem State.putLoan_writeDeadline (tag : Nat) (l : Loan) : (s.putLoan tag l).writeDeadline = s.writeDeadline := rfl
@[simp] theorem State.putLoan_waiting (tag : Nat) (l : Loan) : (s.putLoan tag l).waiting = s.waiting := rfl
@[simp] theorem State.putLoan_settings (tag : Nat) (l : Loan) : (s.putLoan tag l).settings = s.settings := rfl
@[simp] theorem State.putLoan_scan (tag : Nat) (l : Loan) : (s.putLoan tag l).scan = s.scan := rfl
@[simp] theorem State.putLoan_titles (tag : Nat) (l : Loan) : (s.putLoan tag l).titles = s.titles := rfl
@[simp] theorem State.putLoan_freeMap (tag : Nat) (l : Loan) : (s.putLoan tag l).freeMap = s.freeMap := rfl
@[simp] theorem State.putLoan_store (tag : Nat) (l : Loan) : (s.putLoan tag l).store = s.store := rfl
@[simp] theorem State.putLoan_grant (tag : Nat) (l : Loan) : (s.putLoan tag l).grant = s.grant := rfl
@[simp] theorem State.putLoan_searchFrom (tag : Nat) (l : Loan) : (s.putLoan tag l).searchFrom = s.searchFrom := rfl
@[simp] theorem State.putLoan_stagingWriter (tag : Nat) (l : Loan) : (s.putLoan tag l).stagingWriter = s.stagingWriter := rfl
@[simp] theorem State.putLoan_walk (tag : Nat) (l : Loan) : (s.putLoan tag l).walk = s.walk := rfl
@[simp] theorem State.putLoan_patrons (tag : Nat) (l : Loan) : (s.putLoan tag l).patrons = s.patrons := rfl
@[simp] theorem State.putLoan_decreases (tag : Nat) (l : Loan) : (s.putLoan tag l).decreases = s.decreases := rfl
@[simp] theorem State.putLoan_restorations (tag : Nat) (l : Loan) : (s.putLoan tag l).restorations = s.restorations := rfl
@[simp] theorem State.putLoan_loans (tag : Nat) (l : Loan) : (s.putLoan tag l).loans = Table.set tag l s.loans := rfl
@[simp] theorem State.putLoan_nextTag (tag : Nat) (l : Loan) : (s.putLoan tag l).nextTag = s.nextTag := rfl
@[simp] theorem State.putLoan_engine (tag : Nat) (l : Loan) : (s.putLoan tag l).engine = s.engine := rfl
@[simp] theorem State.putLoan_copyQueue (tag : Nat) (l : Loan) : (s.putLoan tag l).copyQueue = s.copyQueue := rfl
@[simp] theorem State.putLoan_chanA (tag : Nat) (l : Loan) : (s.putLoan tag l).chanA = s.chanA := rfl
@[simp] theorem State.putLoan_chanB (tag : Nat) (l : Loan) : (s.putLoan tag l).chanB = s.chanB := rfl
@[simp] theorem State.putLoan_bays (tag : Nat) (l : Loan) : (s.putLoan tag l).bays = s.bays := rfl
@[simp] theorem State.putLoan_lamp (tag : Nat) (l : Loan) : (s.putLoan tag l).lamp = s.lamp := rfl
@[simp] theorem State.putLoan_lineJobs (tag : Nat) (l : Loan) : (s.putLoan tag l).lineJobs = s.lineJobs := rfl
@[simp] theorem State.putLoan_lineCmd (tag : Nat) (l : Loan) : (s.putLoan tag l).lineCmd = s.lineCmd := rfl
@[simp] theorem State.putLoan_stations (tag : Nat) (l : Loan) : (s.putLoan tag l).stations = s.stations := rfl
@[simp] theorem State.putLoan_bins (tag : Nat) (l : Loan) : (s.putLoan tag l).bins = s.bins := rfl
@[simp] theorem State.putLoan_recog (tag : Nat) (l : Loan) : (s.putLoan tag l).recog = s.recog := rfl
@[simp] theorem State.putLoan_cp (tag : Nat) (l : Loan) : (s.putLoan tag l).cp = s.cp := rfl
@[simp] theorem State.putLoan_fp (tag : Nat) (l : Loan) : (s.putLoan tag l).fp = s.fp := rfl

/-! ### putPatron -/

@[simp] theorem State.putPatron_pending (slot : Nat) (p : Patron) : (s.putPatron slot p).pending = s.pending := rfl
@[simp] theorem State.putPatron_now (slot : Nat) (p : Patron) : (s.putPatron slot p).now = s.now := rfl
@[simp] theorem State.putPatron_dayCount (slot : Nat) (p : Patron) : (s.putPatron slot p).dayCount = s.dayCount := rfl
@[simp] theorem State.putPatron_mode (slot : Nat) (p : Patron) : (s.putPatron slot p).mode = s.mode := rfl
@[simp] theorem State.putPatron_startup (slot : Nat) (p : Patron) : (s.putPatron slot p).startup = s.startup := rfl
@[simp] theorem State.putPatron_returned (slot : Nat) (p : Patron) : (s.putPatron slot p).returned = s.returned := rfl
@[simp] theorem State.putPatron_mem (slot : Nat) (p : Patron) : (s.putPatron slot p).mem = s.mem := rfl
@[simp] theorem State.putPatron_writeQueue (slot : Nat) (p : Patron) : (s.putPatron slot p).writeQueue = s.writeQueue := rfl
@[simp] theorem State.putPatron_writeDeadline (slot : Nat) (p : Patron) : (s.putPatron slot p).writeDeadline = s.writeDeadline := rfl
@[simp] theorem State.putPatron_waiting (slot : Nat) (p : Patron) : (s.putPatron slot p).waiting = s.waiting := rfl
@[simp] theorem State.putPatron_settings (slot : Nat) (p : Patron) : (s.putPatron slot p).settings = s.settings := rfl
@[simp] theorem State.putPatron_scan (slot : Nat) (p : Patron) : (s.putPatron slot p).scan = s.scan := rfl
@[simp] theorem State.putPatron_titles (slot : Nat) (p : Patron) : (s.putPatron slot p).titles = s.titles := rfl
@[simp] theorem State.putPatron_freeMap (slot : Nat) (p : Patron) : (s.putPatron slot p).freeMap = s.freeMap := rfl
@[simp] theorem State.putPatron_store (slot : Nat) (p : Patron) : (s.putPatron slot p).store = s.store := rfl
@[simp] theorem State.putPatron_grant (slot : Nat) (p : Patron) : (s.putPatron slot p).grant = s.grant := rfl
@[simp] theorem State.putPatron_searchFrom (slot : Nat) (p : Patron) : (s.putPatron slot p).searchFrom = s.searchFrom := rfl
@[simp] theorem State.putPatron_stagingWriter (slot : Nat) (p : Patron) : (s.putPatron slot p).stagingWriter = s.stagingWriter := rfl
@[simp] theorem State.putPatron_walk (slot : Nat) (p : Patron) : (s.putPatron slot p).walk = s.walk := rfl
@[simp] theorem State.putPatron_patrons (slot : Nat) (p : Patron) : (s.putPatron slot p).patrons = Table.set slot p s.patrons := rfl
@[simp] theorem State.putPatron_decreases (slot : Nat) (p : Patron) : (s.putPatron slot p).decreases = s.decreases := rfl
@[simp] theorem State.putPatron_restorations (slot : Nat) (p : Patron) : (s.putPatron slot p).restorations = s.restorations := rfl
@[simp] theorem State.putPatron_loans (slot : Nat) (p : Patron) : (s.putPatron slot p).loans = s.loans := rfl
@[simp] theorem State.putPatron_nextTag (slot : Nat) (p : Patron) : (s.putPatron slot p).nextTag = s.nextTag := rfl
@[simp] theorem State.putPatron_engine (slot : Nat) (p : Patron) : (s.putPatron slot p).engine = s.engine := rfl
@[simp] theorem State.putPatron_copyQueue (slot : Nat) (p : Patron) : (s.putPatron slot p).copyQueue = s.copyQueue := rfl
@[simp] theorem State.putPatron_chanA (slot : Nat) (p : Patron) : (s.putPatron slot p).chanA = s.chanA := rfl
@[simp] theorem State.putPatron_chanB (slot : Nat) (p : Patron) : (s.putPatron slot p).chanB = s.chanB := rfl
@[simp] theorem State.putPatron_bays (slot : Nat) (p : Patron) : (s.putPatron slot p).bays = s.bays := rfl
@[simp] theorem State.putPatron_lamp (slot : Nat) (p : Patron) : (s.putPatron slot p).lamp = s.lamp := rfl
@[simp] theorem State.putPatron_lineJobs (slot : Nat) (p : Patron) : (s.putPatron slot p).lineJobs = s.lineJobs := rfl
@[simp] theorem State.putPatron_lineCmd (slot : Nat) (p : Patron) : (s.putPatron slot p).lineCmd = s.lineCmd := rfl
@[simp] theorem State.putPatron_stations (slot : Nat) (p : Patron) : (s.putPatron slot p).stations = s.stations := rfl
@[simp] theorem State.putPatron_bins (slot : Nat) (p : Patron) : (s.putPatron slot p).bins = s.bins := rfl
@[simp] theorem State.putPatron_recog (slot : Nat) (p : Patron) : (s.putPatron slot p).recog = s.recog := rfl
@[simp] theorem State.putPatron_cp (slot : Nat) (p : Patron) : (s.putPatron slot p).cp = s.cp := rfl
@[simp] theorem State.putPatron_fp (slot : Nat) (p : Patron) : (s.putPatron slot p).fp = s.fp := rfl

/-! ### updateJob -/

@[simp] theorem State.updateJob_pending (tag : Nat) (f : Job → Job) : (s.updateJob tag f).pending = s.pending := rfl
@[simp] theorem State.updateJob_now (tag : Nat) (f : Job → Job) : (s.updateJob tag f).now = s.now := rfl
@[simp] theorem State.updateJob_dayCount (tag : Nat) (f : Job → Job) : (s.updateJob tag f).dayCount = s.dayCount := rfl
@[simp] theorem State.updateJob_mode (tag : Nat) (f : Job → Job) : (s.updateJob tag f).mode = s.mode := rfl
@[simp] theorem State.updateJob_startup (tag : Nat) (f : Job → Job) : (s.updateJob tag f).startup = s.startup := rfl
@[simp] theorem State.updateJob_returned (tag : Nat) (f : Job → Job) : (s.updateJob tag f).returned = s.returned := rfl
@[simp] theorem State.updateJob_mem (tag : Nat) (f : Job → Job) : (s.updateJob tag f).mem = s.mem := rfl
@[simp] theorem State.updateJob_writeQueue (tag : Nat) (f : Job → Job) : (s.updateJob tag f).writeQueue = s.writeQueue := rfl
@[simp] theorem State.updateJob_writeDeadline (tag : Nat) (f : Job → Job) : (s.updateJob tag f).writeDeadline = s.writeDeadline := rfl
@[simp] theorem State.updateJob_waiting (tag : Nat) (f : Job → Job) : (s.updateJob tag f).waiting = s.waiting := rfl
@[simp] theorem State.updateJob_settings (tag : Nat) (f : Job → Job) : (s.updateJob tag f).settings = s.settings := rfl
@[simp] theorem State.updateJob_scan (tag : Nat) (f : Job → Job) : (s.updateJob tag f).scan = s.scan := rfl
@[simp] theorem State.updateJob_titles (tag : Nat) (f : Job → Job) : (s.updateJob tag f).titles = s.titles := rfl
@[simp] theorem State.updateJob_freeMap (tag : Nat) (f : Job → Job) : (s.updateJob tag f).freeMap = s.freeMap := rfl
@[simp] theorem State.updateJob_store (tag : Nat) (f : Job → Job) : (s.updateJob tag f).store = s.store := rfl
@[simp] theorem State.updateJob_grant (tag : Nat) (f : Job → Job) : (s.updateJob tag f).grant = s.grant := rfl
@[simp] theorem State.updateJob_searchFrom (tag : Nat) (f : Job → Job) : (s.updateJob tag f).searchFrom = s.searchFrom := rfl
@[simp] theorem State.updateJob_stagingWriter (tag : Nat) (f : Job → Job) : (s.updateJob tag f).stagingWriter = s.stagingWriter := rfl
@[simp] theorem State.updateJob_walk (tag : Nat) (f : Job → Job) : (s.updateJob tag f).walk = s.walk := rfl
@[simp] theorem State.updateJob_patrons (tag : Nat) (f : Job → Job) : (s.updateJob tag f).patrons = s.patrons := rfl
@[simp] theorem State.updateJob_decreases (tag : Nat) (f : Job → Job) : (s.updateJob tag f).decreases = s.decreases := rfl
@[simp] theorem State.updateJob_restorations (tag : Nat) (f : Job → Job) : (s.updateJob tag f).restorations = s.restorations := rfl
@[simp] theorem State.updateJob_loans (tag : Nat) (f : Job → Job) : (s.updateJob tag f).loans = s.loans := rfl
@[simp] theorem State.updateJob_nextTag (tag : Nat) (f : Job → Job) : (s.updateJob tag f).nextTag = s.nextTag := rfl
@[simp] theorem State.updateJob_engine (tag : Nat) (f : Job → Job) : (s.updateJob tag f).engine = s.engine := rfl
@[simp] theorem State.updateJob_copyQueue (tag : Nat) (f : Job → Job) : (s.updateJob tag f).copyQueue = s.copyQueue.map (fun j => if j.tag == tag then f j else j) := rfl
@[simp] theorem State.updateJob_chanA (tag : Nat) (f : Job → Job) : (s.updateJob tag f).chanA = s.chanA := rfl
@[simp] theorem State.updateJob_chanB (tag : Nat) (f : Job → Job) : (s.updateJob tag f).chanB = s.chanB := rfl
@[simp] theorem State.updateJob_bays (tag : Nat) (f : Job → Job) : (s.updateJob tag f).bays = s.bays := rfl
@[simp] theorem State.updateJob_lamp (tag : Nat) (f : Job → Job) : (s.updateJob tag f).lamp = s.lamp := rfl
@[simp] theorem State.updateJob_lineJobs (tag : Nat) (f : Job → Job) : (s.updateJob tag f).lineJobs = s.lineJobs := rfl
@[simp] theorem State.updateJob_lineCmd (tag : Nat) (f : Job → Job) : (s.updateJob tag f).lineCmd = s.lineCmd := rfl
@[simp] theorem State.updateJob_stations (tag : Nat) (f : Job → Job) : (s.updateJob tag f).stations = s.stations := rfl
@[simp] theorem State.updateJob_bins (tag : Nat) (f : Job → Job) : (s.updateJob tag f).bins = s.bins := rfl
@[simp] theorem State.updateJob_recog (tag : Nat) (f : Job → Job) : (s.updateJob tag f).recog = s.recog := rfl
@[simp] theorem State.updateJob_cp (tag : Nat) (f : Job → Job) : (s.updateJob tag f).cp = s.cp := rfl
@[simp] theorem State.updateJob_fp (tag : Nat) (f : Job → Job) : (s.updateJob tag f).fp = s.fp := rfl

/-! ### hand -/

@[simp] theorem State.hand_pending (u : WriteUnit) : (s.hand u).pending = s.pending := rfl
@[simp] theorem State.hand_now (u : WriteUnit) : (s.hand u).now = s.now := rfl
@[simp] theorem State.hand_dayCount (u : WriteUnit) : (s.hand u).dayCount = s.dayCount := rfl
@[simp] theorem State.hand_mode (u : WriteUnit) : (s.hand u).mode = s.mode := rfl
@[simp] theorem State.hand_startup (u : WriteUnit) : (s.hand u).startup = s.startup := rfl
@[simp] theorem State.hand_returned (u : WriteUnit) : (s.hand u).returned = s.returned := rfl
@[simp] theorem State.hand_mem (u : WriteUnit) : (s.hand u).mem = s.mem := rfl
@[simp] theorem State.hand_writeQueue (u : WriteUnit) : (s.hand u).writeQueue = s.writeQueue ++ [u] := rfl
@[simp] theorem State.hand_waiting (u : WriteUnit) : (s.hand u).waiting = s.waiting := rfl
@[simp] theorem State.hand_settings (u : WriteUnit) : (s.hand u).settings = s.settings := rfl
@[simp] theorem State.hand_scan (u : WriteUnit) : (s.hand u).scan = s.scan := rfl
@[simp] theorem State.hand_titles (u : WriteUnit) : (s.hand u).titles = s.titles := rfl
@[simp] theorem State.hand_freeMap (u : WriteUnit) : (s.hand u).freeMap = s.freeMap := rfl
@[simp] theorem State.hand_store (u : WriteUnit) : (s.hand u).store = s.store := rfl
@[simp] theorem State.hand_grant (u : WriteUnit) : (s.hand u).grant = s.grant := rfl
@[simp] theorem State.hand_searchFrom (u : WriteUnit) : (s.hand u).searchFrom = s.searchFrom := rfl
@[simp] theorem State.hand_stagingWriter (u : WriteUnit) : (s.hand u).stagingWriter = s.stagingWriter := rfl
@[simp] theorem State.hand_walk (u : WriteUnit) : (s.hand u).walk = s.walk := rfl
@[simp] theorem State.hand_patrons (u : WriteUnit) : (s.hand u).patrons = s.patrons := rfl
@[simp] theorem State.hand_decreases (u : WriteUnit) : (s.hand u).decreases = s.decreases := rfl
@[simp] theorem State.hand_restorations (u : WriteUnit) : (s.hand u).restorations = s.restorations := rfl
@[simp] theorem State.hand_loans (u : WriteUnit) : (s.hand u).loans = s.loans := rfl
@[simp] theorem State.hand_nextTag (u : WriteUnit) : (s.hand u).nextTag = s.nextTag := rfl
@[simp] theorem State.hand_engine (u : WriteUnit) : (s.hand u).engine = s.engine := rfl
@[simp] theorem State.hand_copyQueue (u : WriteUnit) : (s.hand u).copyQueue = s.copyQueue := rfl
@[simp] theorem State.hand_chanA (u : WriteUnit) : (s.hand u).chanA = s.chanA := rfl
@[simp] theorem State.hand_chanB (u : WriteUnit) : (s.hand u).chanB = s.chanB := rfl
@[simp] theorem State.hand_bays (u : WriteUnit) : (s.hand u).bays = s.bays := rfl
@[simp] theorem State.hand_lamp (u : WriteUnit) : (s.hand u).lamp = s.lamp := rfl
@[simp] theorem State.hand_lineJobs (u : WriteUnit) : (s.hand u).lineJobs = s.lineJobs := rfl
@[simp] theorem State.hand_lineCmd (u : WriteUnit) : (s.hand u).lineCmd = s.lineCmd := rfl
@[simp] theorem State.hand_stations (u : WriteUnit) : (s.hand u).stations = s.stations := rfl
@[simp] theorem State.hand_bins (u : WriteUnit) : (s.hand u).bins = s.bins := rfl
@[simp] theorem State.hand_recog (u : WriteUnit) : (s.hand u).recog = s.recog := rfl
@[simp] theorem State.hand_cp (u : WriteUnit) : (s.hand u).cp = s.cp := rfl
@[simp] theorem State.hand_fp (u : WriteUnit) : (s.hand u).fp = s.fp := rfl

/-! ### hold -/

@[simp] theorem State.hold_pending (e : Instr) : (s.hold e).pending = s.pending := rfl
@[simp] theorem State.hold_now (e : Instr) : (s.hold e).now = max s.now ((s.deadlineOf e).getD 0) := rfl
@[simp] theorem State.hold_dayCount (e : Instr) : (s.hold e).dayCount = s.dayCount := rfl
@[simp] theorem State.hold_mode (e : Instr) : (s.hold e).mode = s.mode := rfl
@[simp] theorem State.hold_startup (e : Instr) : (s.hold e).startup = s.startup := rfl
@[simp] theorem State.hold_returned (e : Instr) : (s.hold e).returned = s.returned := rfl
@[simp] theorem State.hold_mem (e : Instr) : (s.hold e).mem = s.mem := rfl
@[simp] theorem State.hold_writeQueue (e : Instr) : (s.hold e).writeQueue = s.writeQueue := rfl
@[simp] theorem State.hold_writeDeadline (e : Instr) : (s.hold e).writeDeadline = s.writeDeadline := rfl
@[simp] theorem State.hold_waiting (e : Instr) : (s.hold e).waiting = s.waiting ++ [{ event := e, awaited := s.awaits e }] := rfl
@[simp] theorem State.hold_settings (e : Instr) : (s.hold e).settings = s.settings := rfl
@[simp] theorem State.hold_scan (e : Instr) : (s.hold e).scan = s.scan := rfl
@[simp] theorem State.hold_titles (e : Instr) : (s.hold e).titles = s.titles := rfl
@[simp] theorem State.hold_freeMap (e : Instr) : (s.hold e).freeMap = s.freeMap := rfl
@[simp] theorem State.hold_store (e : Instr) : (s.hold e).store = s.store := rfl
@[simp] theorem State.hold_grant (e : Instr) : (s.hold e).grant = s.grant := rfl
@[simp] theorem State.hold_searchFrom (e : Instr) : (s.hold e).searchFrom = s.searchFrom := rfl
@[simp] theorem State.hold_stagingWriter (e : Instr) : (s.hold e).stagingWriter = s.stagingWriter := rfl
@[simp] theorem State.hold_walk (e : Instr) : (s.hold e).walk = s.walk := rfl
@[simp] theorem State.hold_patrons (e : Instr) : (s.hold e).patrons = s.patrons := rfl
@[simp] theorem State.hold_decreases (e : Instr) : (s.hold e).decreases = s.decreases := rfl
@[simp] theorem State.hold_restorations (e : Instr) : (s.hold e).restorations = s.restorations := rfl
@[simp] theorem State.hold_loans (e : Instr) : (s.hold e).loans = s.loans := rfl
@[simp] theorem State.hold_nextTag (e : Instr) : (s.hold e).nextTag = s.nextTag := rfl
@[simp] theorem State.hold_engine (e : Instr) : (s.hold e).engine = s.engine := rfl
@[simp] theorem State.hold_copyQueue (e : Instr) : (s.hold e).copyQueue = s.copyQueue := rfl
@[simp] theorem State.hold_chanA (e : Instr) : (s.hold e).chanA = s.chanA := rfl
@[simp] theorem State.hold_chanB (e : Instr) : (s.hold e).chanB = s.chanB := rfl
@[simp] theorem State.hold_bays (e : Instr) : (s.hold e).bays = s.bays := rfl
@[simp] theorem State.hold_lamp (e : Instr) : (s.hold e).lamp = s.lamp := rfl
@[simp] theorem State.hold_lineJobs (e : Instr) : (s.hold e).lineJobs = s.lineJobs := rfl
@[simp] theorem State.hold_lineCmd (e : Instr) : (s.hold e).lineCmd = s.lineCmd := rfl
@[simp] theorem State.hold_stations (e : Instr) : (s.hold e).stations = s.stations := rfl
@[simp] theorem State.hold_bins (e : Instr) : (s.hold e).bins = s.bins := rfl
@[simp] theorem State.hold_recog (e : Instr) : (s.hold e).recog = s.recog := rfl
@[simp] theorem State.hold_cp (e : Instr) : (s.hold e).cp = s.cp := rfl
@[simp] theorem State.hold_fp (e : Instr) : (s.hold e).fp = s.fp := rfl
@[simp] theorem State.bay_hold (e : Instr) (b : BayNo) : (s.hold e).bay b = s.bay b := rfl
@[simp] theorem State.bin_hold (e : Instr) (r : RouteNo) : (s.hold e).bin r = s.bin r := rfl
@[simp] theorem State.port_hold (e : Instr) (q : Port) : (s.hold e).port q = s.port q := by cases q <;> rfl
@[simp] theorem State.chan_hold (e : Instr) (c : Chan) : (s.hold e).chan c = s.chan c := by cases c <;> rfl
@[simp] theorem State.station_hold (e : Instr) (a : Nat) : (s.hold e).station a = s.station a := rfl
@[simp] theorem State.title_hold (e : Instr) (k : Nat) : (s.hold e).title k = s.title k := rfl
@[simp] theorem State.loan_hold (e : Instr) (k : Nat) : (s.hold e).loan k = s.loan k := rfl

/-! ### trigger -/

@[simp] theorem State.trigger_pending : (s.trigger).pending = s.pending := rfl
@[simp] theorem State.trigger_now : (s.trigger).now = s.now := rfl
@[simp] theorem State.trigger_dayCount : (s.trigger).dayCount = s.dayCount := rfl
@[simp] theorem State.trigger_mode : (s.trigger).mode = s.mode := rfl
@[simp] theorem State.trigger_startup : (s.trigger).startup = s.startup := rfl
@[simp] theorem State.trigger_returned : (s.trigger).returned = s.returned := rfl
@[simp] theorem State.trigger_mem : (s.trigger).mem = s.mem := rfl
@[simp] theorem State.trigger_writeQueue : (s.trigger).writeQueue = s.writeQueue := rfl
@[simp] theorem State.trigger_writeDeadline : (s.trigger).writeDeadline = s.writeDeadline := rfl
@[simp] theorem State.trigger_waiting : (s.trigger).waiting = s.waiting := rfl
@[simp] theorem State.trigger_settings : (s.trigger).settings = s.settings := rfl
@[simp] theorem State.trigger_scan : (s.trigger).scan = s.scan := rfl
@[simp] theorem State.trigger_titles : (s.trigger).titles = s.titles := rfl
@[simp] theorem State.trigger_freeMap : (s.trigger).freeMap = s.freeMap := rfl
@[simp] theorem State.trigger_store : (s.trigger).store = s.store := rfl
@[simp] theorem State.trigger_grant : (s.trigger).grant = s.grant := rfl
@[simp] theorem State.trigger_searchFrom : (s.trigger).searchFrom = s.searchFrom := rfl
@[simp] theorem State.trigger_stagingWriter : (s.trigger).stagingWriter = s.stagingWriter := rfl
@[simp] theorem State.trigger_walk : (s.trigger).walk = s.walk := rfl
@[simp] theorem State.trigger_patrons : (s.trigger).patrons = s.patrons := rfl
@[simp] theorem State.trigger_decreases : (s.trigger).decreases = s.decreases := rfl
@[simp] theorem State.trigger_restorations : (s.trigger).restorations = s.restorations := rfl
@[simp] theorem State.trigger_loans : (s.trigger).loans = s.loans := rfl
@[simp] theorem State.trigger_nextTag : (s.trigger).nextTag = s.nextTag := rfl
@[simp] theorem State.trigger_engine : (s.trigger).engine = if s.engine.passing then { s.engine with again := true } else s.engine.startPass := rfl
@[simp] theorem State.trigger_copyQueue : (s.trigger).copyQueue = s.copyQueue := rfl
@[simp] theorem State.trigger_chanA : (s.trigger).chanA = s.chanA := rfl
@[simp] theorem State.trigger_chanB : (s.trigger).chanB = s.chanB := rfl
@[simp] theorem State.trigger_bays : (s.trigger).bays = s.bays := rfl
@[simp] theorem State.trigger_lamp : (s.trigger).lamp = s.lamp := rfl
@[simp] theorem State.trigger_lineJobs : (s.trigger).lineJobs = s.lineJobs := rfl
@[simp] theorem State.trigger_lineCmd : (s.trigger).lineCmd = s.lineCmd := rfl
@[simp] theorem State.trigger_stations : (s.trigger).stations = s.stations := rfl
@[simp] theorem State.trigger_bins : (s.trigger).bins = s.bins := rfl
@[simp] theorem State.trigger_recog : (s.trigger).recog = s.recog := rfl
@[simp] theorem State.trigger_cp : (s.trigger).cp = s.cp := rfl
@[simp] theorem State.trigger_fp : (s.trigger).fp = s.fp := rfl

/-! ### expire -/

@[simp] theorem State.expire_pending (limit : Nat) : (s.expire limit).pending = s.pending := rfl
@[simp] theorem State.expire_now (limit : Nat) : (s.expire limit).now = max s.now limit := rfl
@[simp] theorem State.expire_dayCount (limit : Nat) : (s.expire limit).dayCount = s.dayCount := rfl
@[simp] theorem State.expire_mode (limit : Nat) : (s.expire limit).mode = s.mode := rfl
@[simp] theorem State.expire_startup (limit : Nat) : (s.expire limit).startup = s.startup := rfl
@[simp] theorem State.expire_returned (limit : Nat) : (s.expire limit).returned = s.returned := rfl
@[simp] theorem State.expire_mem (limit : Nat) : (s.expire limit).mem = s.mem := rfl
@[simp] theorem State.expire_writeQueue (limit : Nat) : (s.expire limit).writeQueue = s.writeQueue := rfl
@[simp] theorem State.expire_writeDeadline (limit : Nat) : (s.expire limit).writeDeadline = s.writeDeadline := rfl
@[simp] theorem State.expire_waiting (limit : Nat) : (s.expire limit).waiting = s.waiting := rfl
@[simp] theorem State.expire_settings (limit : Nat) : (s.expire limit).settings = s.settings := rfl
@[simp] theorem State.expire_scan (limit : Nat) : (s.expire limit).scan = s.scan := rfl
@[simp] theorem State.expire_titles (limit : Nat) : (s.expire limit).titles = s.titles := rfl
@[simp] theorem State.expire_freeMap (limit : Nat) : (s.expire limit).freeMap = s.freeMap := rfl
@[simp] theorem State.expire_store (limit : Nat) : (s.expire limit).store = s.store := rfl
@[simp] theorem State.expire_grant (limit : Nat) : (s.expire limit).grant = s.grant := rfl
@[simp] theorem State.expire_searchFrom (limit : Nat) : (s.expire limit).searchFrom = s.searchFrom := rfl
@[simp] theorem State.expire_stagingWriter (limit : Nat) : (s.expire limit).stagingWriter = s.stagingWriter := rfl
@[simp] theorem State.expire_walk (limit : Nat) : (s.expire limit).walk = s.walk := rfl
@[simp] theorem State.expire_patrons (limit : Nat) : (s.expire limit).patrons = s.patrons := rfl
@[simp] theorem State.expire_decreases (limit : Nat) : (s.expire limit).decreases = s.decreases := rfl
@[simp] theorem State.expire_restorations (limit : Nat) : (s.expire limit).restorations = s.restorations := rfl
@[simp] theorem State.expire_loans (limit : Nat) : (s.expire limit).loans = s.loans := rfl
@[simp] theorem State.expire_nextTag (limit : Nat) : (s.expire limit).nextTag = s.nextTag := rfl
@[simp] theorem State.expire_engine (limit : Nat) : (s.expire limit).engine = s.engine := rfl
@[simp] theorem State.expire_copyQueue (limit : Nat) : (s.expire limit).copyQueue = s.copyQueue := rfl
@[simp] theorem State.expire_chanA (limit : Nat) : (s.expire limit).chanA = s.chanA := rfl
@[simp] theorem State.expire_chanB (limit : Nat) : (s.expire limit).chanB = s.chanB := rfl
@[simp] theorem State.expire_bays (limit : Nat) : (s.expire limit).bays = s.bays := rfl
@[simp] theorem State.expire_lamp (limit : Nat) : (s.expire limit).lamp = s.lamp := rfl
@[simp] theorem State.expire_lineJobs (limit : Nat) : (s.expire limit).lineJobs = s.lineJobs := rfl
@[simp] theorem State.expire_lineCmd (limit : Nat) : (s.expire limit).lineCmd = s.lineCmd := rfl
@[simp] theorem State.expire_stations (limit : Nat) : (s.expire limit).stations = s.stations := rfl
@[simp] theorem State.expire_bins (limit : Nat) : (s.expire limit).bins = s.bins := rfl
@[simp] theorem State.expire_recog (limit : Nat) : (s.expire limit).recog = s.recog := rfl
@[simp] theorem State.expire_cp (limit : Nat) : (s.expire limit).cp = s.cp := rfl
@[simp] theorem State.expire_fp (limit : Nat) : (s.expire limit).fp = s.fp := rfl

/-! ### notify -/

@[simp] theorem State.notify_pending (p : Port) (n : Notice) : (s.notify p n).pending = s.pending := by cases p <;> rfl
@[simp] theorem State.notify_now (p : Port) (n : Notice) : (s.notify p n).now = s.now := by cases p <;> rfl
@[simp] theorem State.notify_dayCount (p : Port) (n : Notice) : (s.notify p n).dayCount = s.dayCount := by cases p <;> rfl
@[simp] theorem State.notify_mode (p : Port) (n : Notice) : (s.notify p n).mode = s.mode := by cases p <;> rfl
@[simp] theorem State.notify_startup (p : Port) (n : Notice) : (s.notify p n).startup = s.startup := by cases p <;> rfl
@[simp] theorem State.notify_returned (p : Port) (n : Notice) : (s.notify p n).returned = s.returned := by cases p <;> rfl
@[simp] theorem State.notify_mem (p : Port) (n : Notice) : (s.notify p n).mem = s.mem := by cases p <;> rfl
@[simp] theorem State.notify_writeQueue (p : Port) (n : Notice) : (s.notify p n).writeQueue = s.writeQueue := by cases p <;> rfl
@[simp] theorem State.notify_writeDeadline (p : Port) (n : Notice) : (s.notify p n).writeDeadline = s.writeDeadline := by cases p <;> rfl
@[simp] theorem State.notify_waiting (p : Port) (n : Notice) : (s.notify p n).waiting = s.waiting := by cases p <;> rfl
@[simp] theorem State.notify_settings (p : Port) (n : Notice) : (s.notify p n).settings = s.settings := by cases p <;> rfl
@[simp] theorem State.notify_scan (p : Port) (n : Notice) : (s.notify p n).scan = s.scan := by cases p <;> rfl
@[simp] theorem State.notify_titles (p : Port) (n : Notice) : (s.notify p n).titles = s.titles := by cases p <;> rfl
@[simp] theorem State.notify_freeMap (p : Port) (n : Notice) : (s.notify p n).freeMap = s.freeMap := by cases p <;> rfl
@[simp] theorem State.notify_store (p : Port) (n : Notice) : (s.notify p n).store = s.store := by cases p <;> rfl
@[simp] theorem State.notify_grant (p : Port) (n : Notice) : (s.notify p n).grant = s.grant := by cases p <;> rfl
@[simp] theorem State.notify_searchFrom (p : Port) (n : Notice) : (s.notify p n).searchFrom = s.searchFrom := by cases p <;> rfl
@[simp] theorem State.notify_stagingWriter (p : Port) (n : Notice) : (s.notify p n).stagingWriter = s.stagingWriter := by cases p <;> rfl
@[simp] theorem State.notify_walk (p : Port) (n : Notice) : (s.notify p n).walk = s.walk := by cases p <;> rfl
@[simp] theorem State.notify_patrons (p : Port) (n : Notice) : (s.notify p n).patrons = s.patrons := by cases p <;> rfl
@[simp] theorem State.notify_decreases (p : Port) (n : Notice) : (s.notify p n).decreases = s.decreases := by cases p <;> rfl
@[simp] theorem State.notify_restorations (p : Port) (n : Notice) : (s.notify p n).restorations = s.restorations := by cases p <;> rfl
@[simp] theorem State.notify_loans (p : Port) (n : Notice) : (s.notify p n).loans = s.loans := by cases p <;> rfl
@[simp] theorem State.notify_nextTag (p : Port) (n : Notice) : (s.notify p n).nextTag = s.nextTag := by cases p <;> rfl
@[simp] theorem State.notify_engine (p : Port) (n : Notice) : (s.notify p n).engine = s.engine := by cases p <;> rfl
@[simp] theorem State.notify_copyQueue (p : Port) (n : Notice) : (s.notify p n).copyQueue = s.copyQueue := by cases p <;> rfl
@[simp] theorem State.notify_chanA (p : Port) (n : Notice) : (s.notify p n).chanA = s.chanA := by cases p <;> rfl
@[simp] theorem State.notify_chanB (p : Port) (n : Notice) : (s.notify p n).chanB = s.chanB := by cases p <;> rfl
@[simp] theorem State.notify_bays (p : Port) (n : Notice) : (s.notify p n).bays = s.bays := by cases p <;> rfl
@[simp] theorem State.notify_lamp (p : Port) (n : Notice) : (s.notify p n).lamp = s.lamp := by cases p <;> rfl
@[simp] theorem State.notify_lineJobs (p : Port) (n : Notice) : (s.notify p n).lineJobs = s.lineJobs := by cases p <;> rfl
@[simp] theorem State.notify_lineCmd (p : Port) (n : Notice) : (s.notify p n).lineCmd = s.lineCmd := by cases p <;> rfl
@[simp] theorem State.notify_stations (p : Port) (n : Notice) : (s.notify p n).stations = s.stations := by cases p <;> rfl
@[simp] theorem State.notify_bins (p : Port) (n : Notice) : (s.notify p n).bins = s.bins := by cases p <;> rfl
@[simp] theorem State.notify_recog (p : Port) (n : Notice) : (s.notify p n).recog = s.recog := by cases p <;> rfl

/-! ### voidHeld -/

@[simp] theorem State.voidHeld_pending (b : BayNo) : (s.voidHeld b).pending = s.pending := rfl
@[simp] theorem State.voidHeld_now (b : BayNo) : (s.voidHeld b).now = s.now := rfl
@[simp] theorem State.voidHeld_dayCount (b : BayNo) : (s.voidHeld b).dayCount = s.dayCount := rfl
@[simp] theorem State.voidHeld_mode (b : BayNo) : (s.voidHeld b).mode = s.mode := rfl
@[simp] theorem State.voidHeld_startup (b : BayNo) : (s.voidHeld b).startup = s.startup := rfl
@[simp] theorem State.voidHeld_returned (b : BayNo) : (s.voidHeld b).returned = s.returned := rfl
@[simp] theorem State.voidHeld_mem (b : BayNo) : (s.voidHeld b).mem = s.mem := rfl
@[simp] theorem State.voidHeld_writeQueue (b : BayNo) : (s.voidHeld b).writeQueue = s.writeQueue := rfl
@[simp] theorem State.voidHeld_writeDeadline (b : BayNo) : (s.voidHeld b).writeDeadline = s.writeDeadline := rfl
@[simp] theorem State.voidHeld_settings (b : BayNo) : (s.voidHeld b).settings = s.settings := rfl
@[simp] theorem State.voidHeld_scan (b : BayNo) : (s.voidHeld b).scan = s.scan := rfl
@[simp] theorem State.voidHeld_titles (b : BayNo) : (s.voidHeld b).titles = s.titles := rfl
@[simp] theorem State.voidHeld_freeMap (b : BayNo) : (s.voidHeld b).freeMap = s.freeMap := rfl
@[simp] theorem State.voidHeld_store (b : BayNo) : (s.voidHeld b).store = s.store := rfl
@[simp] theorem State.voidHeld_grant (b : BayNo) : (s.voidHeld b).grant = s.grant := rfl
@[simp] theorem State.voidHeld_searchFrom (b : BayNo) : (s.voidHeld b).searchFrom = s.searchFrom := rfl
@[simp] theorem State.voidHeld_stagingWriter (b : BayNo) : (s.voidHeld b).stagingWriter = s.stagingWriter := rfl
@[simp] theorem State.voidHeld_walk (b : BayNo) : (s.voidHeld b).walk = s.walk := rfl
@[simp] theorem State.voidHeld_patrons (b : BayNo) : (s.voidHeld b).patrons = s.patrons := rfl
@[simp] theorem State.voidHeld_decreases (b : BayNo) : (s.voidHeld b).decreases = s.decreases := rfl
@[simp] theorem State.voidHeld_restorations (b : BayNo) : (s.voidHeld b).restorations = s.restorations := rfl
@[simp] theorem State.voidHeld_loans (b : BayNo) : (s.voidHeld b).loans = s.loans := rfl
@[simp] theorem State.voidHeld_nextTag (b : BayNo) : (s.voidHeld b).nextTag = s.nextTag := rfl
@[simp] theorem State.voidHeld_engine (b : BayNo) : (s.voidHeld b).engine = s.engine := rfl
@[simp] theorem State.voidHeld_copyQueue (b : BayNo) : (s.voidHeld b).copyQueue = s.copyQueue := rfl
@[simp] theorem State.voidHeld_chanA (b : BayNo) : (s.voidHeld b).chanA = s.chanA := rfl
@[simp] theorem State.voidHeld_chanB (b : BayNo) : (s.voidHeld b).chanB = s.chanB := rfl
@[simp] theorem State.voidHeld_bays (b : BayNo) : (s.voidHeld b).bays = s.bays := rfl
@[simp] theorem State.voidHeld_lamp (b : BayNo) : (s.voidHeld b).lamp = s.lamp := rfl
@[simp] theorem State.voidHeld_lineJobs (b : BayNo) : (s.voidHeld b).lineJobs = s.lineJobs := rfl
@[simp] theorem State.voidHeld_lineCmd (b : BayNo) : (s.voidHeld b).lineCmd = s.lineCmd := rfl
@[simp] theorem State.voidHeld_stations (b : BayNo) : (s.voidHeld b).stations = s.stations := rfl
@[simp] theorem State.voidHeld_bins (b : BayNo) : (s.voidHeld b).bins = s.bins := rfl
@[simp] theorem State.voidHeld_recog (b : BayNo) : (s.voidHeld b).recog = s.recog := rfl
@[simp] theorem State.voidHeld_cp (b : BayNo) : (s.voidHeld b).cp = s.cp := rfl
@[simp] theorem State.voidHeld_fp (b : BayNo) : (s.voidHeld b).fp = s.fp := rfl
@[simp] theorem State.bay_voidHeld (b c : BayNo) : (s.voidHeld b).bay c = s.bay c := rfl
@[simp] theorem State.port_voidHeld (b : BayNo) (q : Port) : (s.voidHeld b).port q = s.port q := by cases q <;> rfl
@[simp] theorem State.chan_voidHeld (b : BayNo) (c : Chan) : (s.voidHeld b).chan c = s.chan c := by cases c <;> rfl
@[simp] theorem State.loan_voidHeld (b : BayNo) (k : Nat) : (s.voidHeld b).loan k = s.loan k := rfl
@[simp] theorem State.title_voidHeld (b : BayNo) (k : Nat) : (s.voidHeld b).title k = s.title k := rfl

/-- With no event waiting a removal discards none. -/
theorem State.voidHeld_none {s : State} (b : BayNo) (h : s.waiting = []) : s.voidHeld b = s := by
  cases s
  simp_all [State.voidHeld]

/-! ### endPosted -/

@[simp] theorem State.endPosted_pending (p : Port) : (s.endPosted p).pending = s.pending := by cases p <;> rfl
@[simp] theorem State.endPosted_now (p : Port) : (s.endPosted p).now = s.now := by cases p <;> rfl
@[simp] theorem State.endPosted_dayCount (p : Port) : (s.endPosted p).dayCount = s.dayCount := by cases p <;> rfl
@[simp] theorem State.endPosted_mode (p : Port) : (s.endPosted p).mode = s.mode := by cases p <;> rfl
@[simp] theorem State.endPosted_startup (p : Port) : (s.endPosted p).startup = s.startup := by cases p <;> rfl
@[simp] theorem State.endPosted_returned (p : Port) : (s.endPosted p).returned = s.returned := by cases p <;> rfl
@[simp] theorem State.endPosted_mem (p : Port) : (s.endPosted p).mem = s.mem := by cases p <;> rfl
@[simp] theorem State.endPosted_writeQueue (p : Port) : (s.endPosted p).writeQueue = s.writeQueue := by cases p <;> rfl
@[simp] theorem State.endPosted_writeDeadline (p : Port) : (s.endPosted p).writeDeadline = s.writeDeadline := by cases p <;> rfl
@[simp] theorem State.endPosted_waiting (p : Port) : (s.endPosted p).waiting = s.waiting := by cases p <;> rfl
@[simp] theorem State.endPosted_settings (p : Port) : (s.endPosted p).settings = s.settings := by cases p <;> rfl
@[simp] theorem State.endPosted_scan (p : Port) : (s.endPosted p).scan = s.scan := by cases p <;> rfl
@[simp] theorem State.endPosted_titles (p : Port) : (s.endPosted p).titles = s.titles := by cases p <;> rfl
@[simp] theorem State.endPosted_freeMap (p : Port) : (s.endPosted p).freeMap = s.freeMap := by cases p <;> rfl
@[simp] theorem State.endPosted_store (p : Port) : (s.endPosted p).store = s.store := by cases p <;> rfl
@[simp] theorem State.endPosted_grant (p : Port) : (s.endPosted p).grant = s.grant := by cases p <;> rfl
@[simp] theorem State.endPosted_searchFrom (p : Port) : (s.endPosted p).searchFrom = s.searchFrom := by cases p <;> rfl
@[simp] theorem State.endPosted_stagingWriter (p : Port) : (s.endPosted p).stagingWriter = s.stagingWriter := by cases p <;> rfl
@[simp] theorem State.endPosted_walk (p : Port) : (s.endPosted p).walk = s.walk := by cases p <;> rfl
@[simp] theorem State.endPosted_patrons (p : Port) : (s.endPosted p).patrons = s.patrons := by cases p <;> rfl
@[simp] theorem State.endPosted_decreases (p : Port) : (s.endPosted p).decreases = s.decreases := by cases p <;> rfl
@[simp] theorem State.endPosted_restorations (p : Port) : (s.endPosted p).restorations = s.restorations := by cases p <;> rfl
@[simp] theorem State.endPosted_loans (p : Port) : (s.endPosted p).loans = s.loans := by cases p <;> rfl
@[simp] theorem State.endPosted_nextTag (p : Port) : (s.endPosted p).nextTag = s.nextTag := by cases p <;> rfl
@[simp] theorem State.endPosted_engine (p : Port) : (s.endPosted p).engine = s.engine := by cases p <;> rfl
@[simp] theorem State.endPosted_copyQueue (p : Port) : (s.endPosted p).copyQueue = s.copyQueue := by cases p <;> rfl
@[simp] theorem State.endPosted_chanA (p : Port) : (s.endPosted p).chanA = s.chanA := by cases p <;> rfl
@[simp] theorem State.endPosted_chanB (p : Port) : (s.endPosted p).chanB = s.chanB := by cases p <;> rfl
@[simp] theorem State.endPosted_bays (p : Port) : (s.endPosted p).bays = s.bays := by cases p <;> rfl
@[simp] theorem State.endPosted_lamp (p : Port) : (s.endPosted p).lamp = s.lamp := by cases p <;> rfl
@[simp] theorem State.endPosted_lineJobs (p : Port) : (s.endPosted p).lineJobs = s.lineJobs := by cases p <;> rfl
@[simp] theorem State.endPosted_lineCmd (p : Port) : (s.endPosted p).lineCmd = s.lineCmd := by cases p <;> rfl
@[simp] theorem State.endPosted_stations (p : Port) : (s.endPosted p).stations = s.stations := by cases p <;> rfl
@[simp] theorem State.endPosted_bins (p : Port) : (s.endPosted p).bins = s.bins := by cases p <;> rfl
@[simp] theorem State.endPosted_recog (p : Port) : (s.endPosted p).recog = s.recog := by cases p <;> rfl

/-! ### Reading what was written -/

@[simp] theorem State.port_setPort_self (p : Port) (u : PortUnit) : (s.setPort p u).port p = u := by cases p <;> rfl

@[simp] theorem State.port_setPort_cp_fp (u : PortUnit) : (s.setPort .cp u).port .fp = s.port .fp := rfl

@[simp] theorem State.port_setPort_fp_cp (u : PortUnit) : (s.setPort .fp u).port .cp = s.port .cp := rfl

theorem State.port_setPort_other {p q : Port} (h : q ≠ p) (u : PortUnit) : (s.setPort p u).port q = s.port q := by
  cases p <;> cases q <;> first | exact absurd rfl h | rfl

@[simp] theorem State.port_notify_self (p : Port) (n : Notice) : (s.notify p n).port p = (s.port p).append n := by
  cases p <;> rfl

theorem State.port_notify_other {p q : Port} (h : q ≠ p) (n : Notice) : (s.notify p n).port q = s.port q := by
  cases p <;> cases q <;> first | exact absurd rfl h | rfl

@[simp] theorem State.port_endPosted_self (p : Port) : (s.endPosted p).port p = (s.port p).endApplication := by
  cases p <;> rfl

@[simp] theorem State.chan_setChan_self (c : Chan) (x : Channel) : (s.setChan c x).chan c = x := by cases c <;> rfl

theorem State.chan_setChan_other {c d : Chan} (h : d ≠ c) (x : Channel) : (s.setChan c x).chan d = s.chan d := by
  cases c <;> cases d <;> first | exact absurd rfl h | rfl

@[simp] theorem State.bay_setBay_self (b : BayNo) (x : Bay) : (s.setBay b x).bay b = x := by
  simp [State.setBay, State.bay]

theorem State.bay_setBay_other {b c : BayNo} (h : c ≠ b) (x : Bay) : (s.setBay b x).bay c = s.bay c := by
  have hv : b.val ≠ c.val := fun e => h (Fin.ext e.symm)
  simp [State.setBay, State.bay, Vector.getElem_set_ne _ _ hv]

@[simp] theorem State.setBay_setBay (b : BayNo) (x y : Bay) : (s.setBay b x).setBay b y = s.setBay b y := by
  simp [State.setBay]

@[simp] theorem State.setChan_setChan (c : Chan) (x y : Channel) : (s.setChan c x).setChan c y = s.setChan c y := by
  cases c <;> rfl

@[simp] theorem State.setBin_setBin (r : RouteNo) (x y : Bin) : (s.setBin r x).setBin r y = s.setBin r y := by
  simp [State.setBin]

@[simp] theorem State.bin_setBin_self (r : RouteNo) (x : Bin) : (s.setBin r x).bin r = x := by
  simp [State.setBin, State.bin]

theorem State.bin_setBin_other {r q : RouteNo} (h : q ≠ r) (x : Bin) : (s.setBin r x).bin q = s.bin q := by
  have hv : r.val ≠ q.val := fun e => h (Fin.ext e.symm)
  simp [State.setBin, State.bin, Vector.getElem_set_ne _ _ hv]

/-! ### Reads that other updates leave alone -/

@[simp] theorem State.port_setChan (d : Chan) (x : Channel) (side : Port) : (s.setChan d x).port side = s.port side := by cases d <;> cases side <;> rfl
@[simp] theorem State.port_setBay (d : BayNo) (x : Bay) (side : Port) : (s.setBay d x).port side = s.port side := by cases side <;> rfl
@[simp] theorem State.port_setBin (q : RouteNo) (x : Bin) (side : Port) : (s.setBin q x).port side = s.port side := by cases side <;> rfl
@[simp] theorem State.port_setStation (d : Nat) (x : StationState) (side : Port) : (s.setStation d x).port side = s.port side := by
  unfold State.setStation; split <;> cases side <;> rfl
@[simp] theorem State.port_putTitle (k : Nat) (t : Title) (side : Port) : (s.putTitle k t).port side = s.port side := by cases side <;> rfl
@[simp] theorem State.port_putLoan (k : Nat) (l : Loan) (side : Port) : (s.putLoan k l).port side = s.port side := by cases side <;> rfl
@[simp] theorem State.port_putPatron (slot : Nat) (p : Patron) (side : Port) : (s.putPatron slot p).port side = s.port side := by cases side <;> rfl
@[simp] theorem State.port_updateJob (k : Nat) (f : Job → Job) (side : Port) : (s.updateJob k f).port side = s.port side := by cases side <;> rfl
@[simp] theorem State.port_hand (u : WriteUnit) (side : Port) : (s.hand u).port side = s.port side := by cases side <;> rfl
@[simp] theorem State.port_trigger (side : Port) : (s.trigger).port side = s.port side := by cases side <;> rfl
@[simp] theorem State.port_expire (limit : Nat) (side : Port) : (s.expire limit).port side = s.port side := by cases side <;> rfl

@[simp] theorem State.bay_setPort (p : Port) (u : PortUnit) (b : BayNo) : (s.setPort p u).bay b = s.bay b := by cases p <;> rfl
@[simp] theorem State.bay_setChan (d : Chan) (x : Channel) (b : BayNo) : (s.setChan d x).bay b = s.bay b := by cases d <;> rfl
@[simp] theorem State.bay_setBin (q : RouteNo) (x : Bin) (b : BayNo) : (s.setBin q x).bay b = s.bay b := rfl
@[simp] theorem State.bay_setStation (d : Nat) (x : StationState) (b : BayNo) : (s.setStation d x).bay b = s.bay b := by
  unfold State.setStation; split <;> rfl
@[simp] theorem State.bay_putTitle (k : Nat) (t : Title) (b : BayNo) : (s.putTitle k t).bay b = s.bay b := rfl
@[simp] theorem State.bay_putLoan (k : Nat) (l : Loan) (b : BayNo) : (s.putLoan k l).bay b = s.bay b := rfl
@[simp] theorem State.bay_putPatron (slot : Nat) (p : Patron) (b : BayNo) : (s.putPatron slot p).bay b = s.bay b := rfl
@[simp] theorem State.bay_updateJob (k : Nat) (f : Job → Job) (b : BayNo) : (s.updateJob k f).bay b = s.bay b := rfl
@[simp] theorem State.bay_hand (u : WriteUnit) (b : BayNo) : (s.hand u).bay b = s.bay b := rfl
@[simp] theorem State.bay_trigger (b : BayNo) : (s.trigger).bay b = s.bay b := rfl
@[simp] theorem State.bay_expire (limit : Nat) (b : BayNo) : (s.expire limit).bay b = s.bay b := rfl
@[simp] theorem State.bay_notify (p : Port) (m : Notice) (b : BayNo) : (s.notify p m).bay b = s.bay b := by cases p <;> rfl
@[simp] theorem State.bay_endPosted (p : Port) (b : BayNo) : (s.endPosted p).bay b = s.bay b := by cases p <;> rfl

@[simp] theorem State.bin_setPort (p : Port) (u : PortUnit) (r : RouteNo) : (s.setPort p u).bin r = s.bin r := by cases p <;> rfl
@[simp] theorem State.bin_setChan (d : Chan) (x : Channel) (r : RouteNo) : (s.setChan d x).bin r = s.bin r := by cases d <;> rfl
@[simp] theorem State.bin_setBay (d : BayNo) (x : Bay) (r : RouteNo) : (s.setBay d x).bin r = s.bin r := rfl
@[simp] theorem State.bin_setStation (d : Nat) (x : StationState) (r : RouteNo) : (s.setStation d x).bin r = s.bin r := by
  unfold State.setStation; split <;> rfl
@[simp] theorem State.bin_putTitle (k : Nat) (t : Title) (r : RouteNo) : (s.putTitle k t).bin r = s.bin r := rfl
@[simp] theorem State.bin_putLoan (k : Nat) (l : Loan) (r : RouteNo) : (s.putLoan k l).bin r = s.bin r := rfl
@[simp] theorem State.bin_putPatron (slot : Nat) (p : Patron) (r : RouteNo) : (s.putPatron slot p).bin r = s.bin r := rfl
@[simp] theorem State.bin_updateJob (k : Nat) (f : Job → Job) (r : RouteNo) : (s.updateJob k f).bin r = s.bin r := rfl
@[simp] theorem State.bin_hand (u : WriteUnit) (r : RouteNo) : (s.hand u).bin r = s.bin r := rfl
@[simp] theorem State.bin_trigger (r : RouteNo) : (s.trigger).bin r = s.bin r := rfl
@[simp] theorem State.bin_expire (limit : Nat) (r : RouteNo) : (s.expire limit).bin r = s.bin r := rfl
@[simp] theorem State.bin_notify (p : Port) (m : Notice) (r : RouteNo) : (s.notify p m).bin r = s.bin r := by cases p <;> rfl
@[simp] theorem State.bin_endPosted (p : Port) (r : RouteNo) : (s.endPosted p).bin r = s.bin r := by cases p <;> rfl

@[simp] theorem State.title_setPort (p : Port) (u : PortUnit) (n : Nat) : (s.setPort p u).title n = s.title n := by cases p <;> rfl
@[simp] theorem State.title_setChan (d : Chan) (x : Channel) (n : Nat) : (s.setChan d x).title n = s.title n := by cases d <;> rfl
@[simp] theorem State.title_setBay (d : BayNo) (x : Bay) (n : Nat) : (s.setBay d x).title n = s.title n := rfl
@[simp] theorem State.title_setBin (q : RouteNo) (x : Bin) (n : Nat) : (s.setBin q x).title n = s.title n := rfl
@[simp] theorem State.title_setStation (d : Nat) (x : StationState) (n : Nat) : (s.setStation d x).title n = s.title n := by
  unfold State.setStation; split <;> rfl
@[simp] theorem State.title_putLoan (k : Nat) (l : Loan) (n : Nat) : (s.putLoan k l).title n = s.title n := rfl
@[simp] theorem State.title_putPatron (slot : Nat) (p : Patron) (n : Nat) : (s.putPatron slot p).title n = s.title n := rfl
@[simp] theorem State.title_updateJob (k : Nat) (f : Job → Job) (n : Nat) : (s.updateJob k f).title n = s.title n := rfl
@[simp] theorem State.title_hand (u : WriteUnit) (n : Nat) : (s.hand u).title n = s.title n := rfl
@[simp] theorem State.title_trigger (n : Nat) : (s.trigger).title n = s.title n := rfl
@[simp] theorem State.title_expire (limit : Nat) (n : Nat) : (s.expire limit).title n = s.title n := rfl
@[simp] theorem State.title_notify (p : Port) (m : Notice) (n : Nat) : (s.notify p m).title n = s.title n := by cases p <;> rfl
@[simp] theorem State.title_endPosted (p : Port) (n : Nat) : (s.endPosted p).title n = s.title n := by cases p <;> rfl

@[simp] theorem State.loan_setPort (p : Port) (u : PortUnit) (tag : Nat) : (s.setPort p u).loan tag = s.loan tag := by cases p <;> rfl
@[simp] theorem State.loan_setChan (d : Chan) (x : Channel) (tag : Nat) : (s.setChan d x).loan tag = s.loan tag := by cases d <;> rfl
@[simp] theorem State.loan_setBay (d : BayNo) (x : Bay) (tag : Nat) : (s.setBay d x).loan tag = s.loan tag := rfl
@[simp] theorem State.loan_setBin (q : RouteNo) (x : Bin) (tag : Nat) : (s.setBin q x).loan tag = s.loan tag := rfl
@[simp] theorem State.loan_setStation (d : Nat) (x : StationState) (tag : Nat) : (s.setStation d x).loan tag = s.loan tag := by
  unfold State.setStation; split <;> rfl
@[simp] theorem State.loan_putTitle (k : Nat) (t : Title) (tag : Nat) : (s.putTitle k t).loan tag = s.loan tag := rfl
@[simp] theorem State.loan_putPatron (slot : Nat) (p : Patron) (tag : Nat) : (s.putPatron slot p).loan tag = s.loan tag := rfl
@[simp] theorem State.loan_updateJob (k : Nat) (f : Job → Job) (tag : Nat) : (s.updateJob k f).loan tag = s.loan tag := rfl
@[simp] theorem State.loan_hand (u : WriteUnit) (tag : Nat) : (s.hand u).loan tag = s.loan tag := rfl
@[simp] theorem State.loan_trigger (tag : Nat) : (s.trigger).loan tag = s.loan tag := rfl
@[simp] theorem State.loan_expire (limit : Nat) (tag : Nat) : (s.expire limit).loan tag = s.loan tag := rfl
@[simp] theorem State.loan_notify (p : Port) (m : Notice) (tag : Nat) : (s.notify p m).loan tag = s.loan tag := by cases p <;> rfl
@[simp] theorem State.loan_endPosted (p : Port) (tag : Nat) : (s.endPosted p).loan tag = s.loan tag := by cases p <;> rfl

@[simp] theorem State.reader_setPort (p : Port) (u : PortUnit) (number : Nat) : (s.setPort p u).reader number = s.reader number := by cases p <;> rfl
@[simp] theorem State.reader_setChan (d : Chan) (x : Channel) (number : Nat) : (s.setChan d x).reader number = s.reader number := by cases d <;> rfl
@[simp] theorem State.reader_setBay (d : BayNo) (x : Bay) (number : Nat) : (s.setBay d x).reader number = s.reader number := rfl
@[simp] theorem State.reader_setBin (q : RouteNo) (x : Bin) (number : Nat) : (s.setBin q x).reader number = s.reader number := rfl
@[simp] theorem State.reader_setStation (d : Nat) (x : StationState) (number : Nat) : (s.setStation d x).reader number = s.reader number := by
  unfold State.setStation; split <;> rfl
@[simp] theorem State.reader_putTitle (k : Nat) (t : Title) (number : Nat) : (s.putTitle k t).reader number = s.reader number := rfl
@[simp] theorem State.reader_putLoan (k : Nat) (l : Loan) (number : Nat) : (s.putLoan k l).reader number = s.reader number := rfl
@[simp] theorem State.reader_updateJob (k : Nat) (f : Job → Job) (number : Nat) : (s.updateJob k f).reader number = s.reader number := rfl
@[simp] theorem State.reader_hand (u : WriteUnit) (number : Nat) : (s.hand u).reader number = s.reader number := rfl
@[simp] theorem State.reader_trigger (number : Nat) : (s.trigger).reader number = s.reader number := rfl
@[simp] theorem State.reader_expire (limit : Nat) (number : Nat) : (s.expire limit).reader number = s.reader number := rfl
@[simp] theorem State.reader_notify (p : Port) (m : Notice) (number : Nat) : (s.notify p m).reader number = s.reader number := by cases p <;> rfl
@[simp] theorem State.reader_endPosted (p : Port) (number : Nat) : (s.endPosted p).reader number = s.reader number := by cases p <;> rfl

@[simp] theorem State.setting_setPort (p : Port) (u : PortUnit) (n : Nat) : (s.setPort p u).setting n = s.setting n := by cases p <;> rfl
@[simp] theorem State.setting_setChan (d : Chan) (x : Channel) (n : Nat) : (s.setChan d x).setting n = s.setting n := by cases d <;> rfl
@[simp] theorem State.setting_setBay (d : BayNo) (x : Bay) (n : Nat) : (s.setBay d x).setting n = s.setting n := rfl
@[simp] theorem State.setting_setBin (q : RouteNo) (x : Bin) (n : Nat) : (s.setBin q x).setting n = s.setting n := rfl
@[simp] theorem State.setting_setStation (d : Nat) (x : StationState) (n : Nat) : (s.setStation d x).setting n = s.setting n := by
  unfold State.setStation; split <;> rfl
@[simp] theorem State.setting_putTitle (k : Nat) (t : Title) (n : Nat) : (s.putTitle k t).setting n = s.setting n := rfl
@[simp] theorem State.setting_putLoan (k : Nat) (l : Loan) (n : Nat) : (s.putLoan k l).setting n = s.setting n := rfl
@[simp] theorem State.setting_putPatron (slot : Nat) (p : Patron) (n : Nat) : (s.putPatron slot p).setting n = s.setting n := rfl
@[simp] theorem State.setting_updateJob (k : Nat) (f : Job → Job) (n : Nat) : (s.updateJob k f).setting n = s.setting n := rfl
@[simp] theorem State.setting_hand (u : WriteUnit) (n : Nat) : (s.hand u).setting n = s.setting n := rfl
@[simp] theorem State.setting_trigger (n : Nat) : (s.trigger).setting n = s.setting n := rfl
@[simp] theorem State.setting_expire (limit : Nat) (n : Nat) : (s.expire limit).setting n = s.setting n := rfl
@[simp] theorem State.setting_notify (p : Port) (m : Notice) (n : Nat) : (s.notify p m).setting n = s.setting n := by cases p <;> rfl
@[simp] theorem State.setting_endPosted (p : Port) (n : Nat) : (s.endPosted p).setting n = s.setting n := by cases p <;> rfl

@[simp] theorem State.chan_setPort (p : Port) (u : PortUnit) (c : Chan) : (s.setPort p u).chan c = s.chan c := by cases p <;> rfl
@[simp] theorem State.chan_setBay (d : BayNo) (x : Bay) (c : Chan) : (s.setBay d x).chan c = s.chan c := rfl
@[simp] theorem State.chan_setBin (q : RouteNo) (x : Bin) (c : Chan) : (s.setBin q x).chan c = s.chan c := rfl
@[simp] theorem State.chan_setStation (d : Nat) (x : StationState) (c : Chan) : (s.setStation d x).chan c = s.chan c := by
  unfold State.setStation; split <;> rfl
@[simp] theorem State.chan_putTitle (k : Nat) (t : Title) (c : Chan) : (s.putTitle k t).chan c = s.chan c := rfl
@[simp] theorem State.chan_putLoan (k : Nat) (l : Loan) (c : Chan) : (s.putLoan k l).chan c = s.chan c := rfl
@[simp] theorem State.chan_putPatron (slot : Nat) (p : Patron) (c : Chan) : (s.putPatron slot p).chan c = s.chan c := rfl
@[simp] theorem State.chan_updateJob (k : Nat) (f : Job → Job) (c : Chan) : (s.updateJob k f).chan c = s.chan c := rfl
@[simp] theorem State.chan_hand (u : WriteUnit) (c : Chan) : (s.hand u).chan c = s.chan c := rfl
@[simp] theorem State.chan_trigger (c : Chan) : (s.trigger).chan c = s.chan c := rfl
@[simp] theorem State.chan_expire (limit : Nat) (c : Chan) : (s.expire limit).chan c = s.chan c := rfl
@[simp] theorem State.chan_notify (p : Port) (m : Notice) (c : Chan) : (s.notify p m).chan c = s.chan c := by cases p <;> rfl
@[simp] theorem State.chan_endPosted (p : Port) (c : Chan) : (s.endPosted p).chan c = s.chan c := by cases p <;> rfl

@[simp] theorem State.station_setPort (p : Port) (u : PortUnit) (a : Nat) : (s.setPort p u).station a = s.station a := by cases p <;> rfl
@[simp] theorem State.station_setChan (d : Chan) (x : Channel) (a : Nat) : (s.setChan d x).station a = s.station a := by cases d <;> rfl
@[simp] theorem State.station_setBay (d : BayNo) (x : Bay) (a : Nat) : (s.setBay d x).station a = s.station a := rfl
@[simp] theorem State.station_setBin (q : RouteNo) (x : Bin) (a : Nat) : (s.setBin q x).station a = s.station a := rfl
@[simp] theorem State.station_putTitle (k : Nat) (t : Title) (a : Nat) : (s.putTitle k t).station a = s.station a := rfl
@[simp] theorem State.station_putLoan (k : Nat) (l : Loan) (a : Nat) : (s.putLoan k l).station a = s.station a := rfl
@[simp] theorem State.station_putPatron (slot : Nat) (p : Patron) (a : Nat) : (s.putPatron slot p).station a = s.station a := rfl
@[simp] theorem State.station_updateJob (k : Nat) (f : Job → Job) (a : Nat) : (s.updateJob k f).station a = s.station a := rfl
@[simp] theorem State.station_hand (u : WriteUnit) (a : Nat) : (s.hand u).station a = s.station a := rfl
@[simp] theorem State.station_trigger (a : Nat) : (s.trigger).station a = s.station a := rfl
@[simp] theorem State.station_expire (limit : Nat) (a : Nat) : (s.expire limit).station a = s.station a := rfl
@[simp] theorem State.station_notify (p : Port) (m : Notice) (a : Nat) : (s.notify p m).station a = s.station a := by cases p <;> rfl
@[simp] theorem State.station_endPosted (p : Port) (a : Nat) : (s.endPosted p).station a = s.station a := by cases p <;> rfl

end Sys2Proof.Machine
end

