-- ==== Sys2Proof/Laws/Events.lean ====
section
/-! SUPPORT. What the taking of an event can do: `commit`, the lamp chain that follows, and the acceptance and hand-over
of a posted request. -/

namespace Sys2Proof.Machine

/-! ### The lamp chain -/

/-- An event that leaves the bays alone leaves the lamp chain alone. -/
theorem lampAfter_same {before after : State} (h : after.bays = before.bays) : lampAfter before after = after := by
  simp [lampAfter, h]

/-- The lamp chain's following changes nothing but the lamp chain. -/
theorem lampAfter_eq (before after : State) : lampAfter before after = { after with lamp := (lampAfter before after).lamp } := by
  unfold lampAfter State.lampChanged
  split
  · rfl
  · split <;> rfl

/-! ### The taking of an event -/

/-- An event that hands no unit fits. -/
theorem State.fits_noUnit {s t : State} (h : t.writeQueue = s.writeQueue) : s.fits t = true := by
  simp [State.fits, h]

/-- An event after which the write queue holds at most 128 units fits. -/
theorem State.fits_room {s t : State} (h : t.writeQueue.length ≤ Config.maxUnits) : s.fits t = true := by
  simp [State.fits, h]

/-- An event whose units pass 128 does not fit. -/
theorem State.fits_full {s t : State} (h : s.writeQueue.length < t.writeQueue.length)
    (hw : Config.maxUnits < t.writeQueue.length) : s.fits t = false := by
  simp [State.fits, h, hw]

/-- An event is held back or taken, whole. -/
theorem commit_cases (e : Instr) (f : State → State) (s : State) :
    commit e f s = s.hold e ∨ commit e f s = lampAfter s (f s) := by
  unfold commit
  split
  · exact .inr rfl
  · exact .inl rfl

/-- An event whose units the write queue has a place for is taken. -/
theorem commit_room (e : Instr) (f : State → State) {s : State} (h : (f s).writeQueue.length ≤ Config.maxUnits) :
    commit e f s = lampAfter s (f s) := by
  unfold commit
  rw [if_pos (State.fits_room h)]

/-- An event whose units the write queue has no place for is held back. -/
theorem commit_full (e : Instr) (f : State → State) {s : State} (h : s.writeQueue.length < (f s).writeQueue.length)
    (hw : Config.maxUnits < (f s).writeQueue.length) : commit e f s = s.hold e := by
  unfold commit
  rw [State.fits_full h hw]
  rfl

/-- An event that hands no unit is taken. -/
theorem commit_noUnit (e : Instr) {f : State → State} {s : State} (h : (f s).writeQueue = s.writeQueue) :
    commit e f s = lampAfter s (f s) := by
  unfold commit
  rw [if_pos (State.fits_noUnit h)]

/-- An event that hands no unit and leaves the bays alone is its own effect. -/
theorem commit_plain (e : Instr) {f : State → State} {s t : State} (ht : f s = t) (hw : t.writeQueue = s.writeQueue)
    (hb : t.bays = s.bays) : commit e f s = t := by
  subst ht
  rw [commit_noUnit e hw, lampAfter_same hb]

/-- With a place for its units, an event that leaves the bays alone is its own effect. -/
theorem commit_roomPlain (e : Instr) {f : State → State} {s t : State} (ht : f s = t)
    (hw : t.writeQueue.length ≤ Config.maxUnits) (hb : t.bays = s.bays) : commit e f s = t := by
  subst ht
  rw [commit_room e f hw, lampAfter_same hb]

/-- A command whose event hands no unit and leaves the bays alone: the event's own effect. -/
theorem exec_plain {i e : Instr} {g : State → State} {s t : State} (hi : exec i s = .next (commit e g s)) (ht : g s = t)
    (hw : t.writeQueue = s.writeQueue) (hb : t.bays = s.bays) : exec i s = .next t := by
  rw [hi, commit_plain e ht hw hb]

/-- A command whose event leaves the bays alone, with a place for its units: the event's own effect. -/
theorem exec_roomPlain {i e : Instr} {g : State → State} {s t : State} (hi : exec i s = .next (commit e g s))
    (ht : g s = t) (hw : t.writeQueue.length ≤ Config.maxUnits) (hb : t.bays = s.bays) : exec i s = .next t := by
  rw [hi, commit_roomPlain e ht hw hb]

/-- A command with a place for its event's units: its event's effect, the lamp chain following the bays. -/
theorem exec_room {i e : Instr} {g : State → State} {s t : State} (hi : exec i s = .next (commit e g s))
    (ht : g s = t) (hw : t.writeQueue.length ≤ Config.maxUnits) : exec i s = .next (lampAfter s t) := by
  subst ht
  rw [hi, commit_room e g hw]

/-- A command whose event hands no unit: its event's effect, the lamp chain following the bays. -/
theorem exec_noUnit {i e : Instr} {g : State → State} {s t : State} (hi : exec i s = .next (commit e g s))
    (ht : g s = t) (hw : t.writeQueue = s.writeQueue) : exec i s = .next (lampAfter s t) := by
  subst ht
  rw [hi, commit_noUnit e hw]

/-! ### Ports -/

@[simp] theorem State.setPort_setPort (p : Port) (u v : PortUnit) (s : State) : (s.setPort p u).setPort p v = s.setPort p v := by
  cases p <;> rfl

/-- A port set to what it is. -/
theorem State.setPort_self {p : Port} {u : PortUnit} {s : State} (h : u = s.port p) : s.setPort p u = s := by
  subst h
  cases p <;> rfl

/-! ### Posted requests -/

@[simp] theorem State.taking_writeQueue (p : Port) (q : PostedReq) (s : State) :
    (s.taking p q).writeQueue = s.writeQueue := by cases p <;> rfl

@[simp] theorem State.taking_bays (p : Port) (q : PostedReq) (s : State) : (s.taking p q).bays = s.bays := by
  cases p <;> rfl

/-- A head in application is handed over no second time (R172). -/
theorem PortUnit.handHead_applying {u : PortUnit} (h : u.applying = true) : u.handHead = u := by
  simp [PortUnit.handHead, h]

/-- An empty posted queue has no head to hand over. -/
theorem PortUnit.handHead_empty {u : PortUnit} (h : u.posted = []) : u.handHead = u := by
  simp [PortUnit.handHead, h]

/-- The head of a posted queue with none in application is handed over (R172). -/
theorem PortUnit.handHead_head {u : PortUnit} (h : u.applying = false) (hp : u.posted ≠ []) :
    u.handHead = { u with applying := true, handed := true } := by
  simp [PortUnit.handHead, h, hp]

/-- Nothing is handed over with a head in application, with an empty queue, or while an overdue scan holds the CP queue. -/
theorem State.handHead_none {p : Port} {s : State}
    (h : (s.port p).applying = true ∨ (s.port p).posted = [] ∨ (p = .cp ∧ s.scan ≠ none)) : s.handHead p = s := by
  unfold State.handHead
  split
  · rfl
  · rename_i hc
    rcases h with h | h | ⟨hp, hs⟩
    · exact State.setPort_self (PortUnit.handHead_applying h)
    · exact State.setPort_self (PortUnit.handHead_empty h)
    · exact absurd ⟨hp, by simpa [Option.isSome_iff_ne_none] using hs⟩ hc

/-- The head of a queue with none in application is handed over, where no overdue scan holds the queue (R63, R172). -/
theorem State.handHead_head {p : Port} {s : State} (ha : (s.port p).applying = false) (hp : (s.port p).posted ≠ [])
    (hs : p = .cp → s.scan = none) :
    s.handHead p = s.setPort p { s.port p with applying := true, handed := true } := by
  rw [State.handHead, PortUnit.handHead_head ha hp, if_neg]
  rintro ⟨rfl, hc⟩
  simp [hs rfl] at hc

/-- No application starts for a head that its block has taken, with an empty queue, or while an overdue scan holds the CP
queue (R63, R172). -/
theorem State.startPosted_none {p : Port} {s : State}
    (h : ((s.port p).applying = true ∧ (s.port p).handed = false) ∨
      ((s.port p).applying = false ∧ ((s.port p).posted = [] ∨ (p = .cp ∧ s.scan ≠ none)))) :
    s.startPosted p = s := by
  rcases h with ⟨ha, hh⟩ | ⟨ha, h⟩
  · simp [State.startPosted, State.handHead_none (.inl ha), hh]
  · simp [State.startPosted, State.handHead_none (.inr h), ha]

/-- The block takes the head handed to it before, or handed over now (R172). -/
theorem State.startPosted_head {p : Port} {s : State} (hp : (s.port p).posted ≠ [])
    (h : ((s.port p).applying = true ∧ (s.port p).handed = true) ∨
      ((s.port p).applying = false ∧ (p = .cp → s.scan = none))) :
    s.startPosted p = State.applyHead p (s.setPort p { s.port p with applying := true, handed := false }) := by
  rcases h with ⟨ha, hh⟩ | ⟨ha, hs⟩
  · rw [State.startPosted, State.handHead_none (.inl ha)]
    simp only [ha, hh, Bool.and_self, if_true]
  · cases p <;> simp [State.startPosted, State.handHead_head ha hp hs, State.port, State.setPort]

/-- A held event whose timer, command or line job is over does not occur (R93, R188). -/
theorem State.takeHeld_over {h : Held} {s : State} (gone : s.awaits h.event ≠ h.awaited) : s.takeHeld h = s := by
  simp [State.takeHeld, gone]

/-- What a removal leaves of the held events: those that are not of the cartridge removed (R93). -/
theorem State.mem_voidHeld {b : BayNo} {s : State} {h : Held} :
    h ∈ (s.voidHeld b).waiting ↔ h ∈ s.waiting ∧ s.fromCartridge b h.event = false := by
  simp [State.voidHeld]

/-- The application of the head, its units having a place in the write queue. -/
theorem State.applyHead_fits {p : Port} {q : PostedReq} {rest : List PostedReq} {s : State}
    (hq : (s.port p).posted = q :: rest) (hw : s.fits (applyPosted p q s) = true) :
    s.applyHead p = applyPosted p q s := by
  unfold State.applyHead
  rw [hq]
  simp only
  rw [if_pos hw]

/-- The state of a free port in which a posted request has been accepted and handed over. -/
theorem State.queue_free {p : Port} {s : State} (q : PostedReq) (hs : s.free p)
    (hw : (s.taking p q).fits (applyPosted p q (s.taking p q)) = true) :
    s.queue p q true = applyPosted p q (s.taking p q) := by
  obtain ⟨hm, hr, hp, ha, hc, -⟩ := hs
  have key : s.queue p q true = State.applyHead p (s.taking p q) := by
    cases p with
    | cp =>
      have hsc := hc rfl
      simp only [State.port] at hr hp ha
      simp [State.queue, State.port, hp, Config.maxPosted, State.startPosted, State.handHead, PortUnit.handHead,
        State.reply, State.setPort, ha, hsc, State.taking, acceptedExchange]
    | fp =>
      simp only [State.port] at hr hp ha
      simp [State.queue, State.port, hp, Config.maxPosted, State.startPosted, State.handHead, PortUnit.handHead,
        State.reply, State.setPort, ha, State.taking, acceptedExchange]
  rw [key]
  exact State.applyHead_fits (rest := []) (by simp [State.taking]) hw

/-- A posted request that a free port takes is accepted and applied in the same event. -/
theorem State.takePosted_free {f : Frame} {q : PostedReq} {s : State} (hs : s.free f.port) (hf : Spells f q)
    (hw : (s.taking f.port q).fits (applyPosted f.port q (s.taking f.port q)) = true) :
    s.takePosted q.code f true = applyPosted f.port q (s.taking f.port q) := by
  obtain ⟨h1, h2⟩ := hf
  rw [← State.queue_free q hs hw]
  obtain ⟨hm, hr, -⟩ := hs
  simp [State.takePosted, hr, h1, h2, hm]

/-- The command of a posted request that a free port takes: the application's own effect, where the bays stay. -/
theorem commit_posted (e : Instr) {f : Frame} {p : Port} {q : PostedReq} {s t : State} (hp : f.port = p) (hs : s.free p)
    (hf : Spells f q) (ht : applyPosted p q (s.taking p q) = t) (hw : t.writeQueue.length ≤ Config.maxUnits)
    (hb : t.bays = s.bays) : commit e (State.takePosted q.code f true) s = t := by
  subst hp
  subst ht
  exact commit_roomPlain e (State.takePosted_free hs hf (State.fits_room hw)) hw hb

/-- The command of a posted request that a free port takes, the lamp chain following the bays. -/
theorem commit_postedLamp (e : Instr) {f : Frame} {p : Port} {q : PostedReq} {s t : State} (hp : f.port = p)
    (hs : s.free p) (hf : Spells f q) (ht : applyPosted p q (s.taking p q) = t)
    (hw : t.writeQueue.length ≤ Config.maxUnits) :
    commit e (State.takePosted q.code f true) s = lampAfter s t := by
  subst hp
  subst ht
  have h := State.takePosted_free hs hf (State.fits_room hw)
  rw [commit_room e _ (by rw [h]; exact hw), h]

/-- What a notice handed to a Port Unit changes (R178). -/
theorem PortUnit.append_eq (n : Notice) (u : PortUnit) :
    u.append n =
      { u with
        notices := if u.notices.length < Config.maxNotices then u.notices ++ [n] else u.notices
        overflow := if u.notices.length < Config.maxNotices then u.overflow else true } := by
  unfold PortUnit.append
  split <;> rfl

/-- A refusal of a request just handed over ends its application, with its notice. -/
theorem State.refuse_taking (p : Port) (q : PostedReq) (code : ReqCode) (key : Nat) (why : Reason) (values : List Nat)
    (s : State) : State.refuse p code key why values (s.taking p q) = State.applied p (s.notifyRefused p code key why values) := by
  cases p <;>
    simp only [State.refuse, State.notifyRefused, State.notify, PortUnit.append_eq] <;> rfl

/-- A command that takes a posted request on a free port: the application's own effect, where the bays stay. -/
theorem exec_posted {i e : Instr} {f : Frame} {p : Port} {q : PostedReq} {s t : State}
    (hi : exec i s = .next (commit e (State.takePosted q.code f true) s)) (hp : f.port = p) (hs : s.free p)
    (hf : Spells f q) (ht : applyPosted p q (s.taking p q) = t) (hw : t.writeQueue.length ≤ Config.maxUnits)
    (hb : t.bays = s.bays) : exec i s = .next t := by
  rw [hi, commit_posted e hp hs hf ht hw hb]

/-- A command that takes a posted request on a free port, the lamp chain following the bays. -/
theorem exec_postedLamp {i e : Instr} {f : Frame} {p : Port} {q : PostedReq} {s t : State}
    (hi : exec i s = .next (commit e (State.takePosted q.code f true) s)) (hp : f.port = p) (hs : s.free p)
    (hf : Spells f q) (ht : applyPosted p q (s.taking p q) = t) (hw : t.writeQueue.length ≤ Config.maxUnits) :
    exec i s = .next (lampAfter s t) := by
  rw [hi, commit_postedLamp e hp hs hf ht hw]

end Sys2Proof.Machine
end

