-- ==== Sys2Proof/Laws/Queue.lean ====
section
/-! SUPPORT. What the operations that the copy queue, the bays and the title pins share can do: the hand-over of jobs with
none ready, the store arbiter's next grant, a channel's release, a bay changed within its state, and what the release of
pins leaves alone. -/

namespace Sys2Proof.Machine

/-! ### Shared operations, by the fields they change -/

/-- A notice changes one port's notices and overflow mark (R178). -/
theorem State.notify_eq (p : Port) (n : Notice) (s : State) :
    s.notify p n = s.setPort p
      { s.port p with
        notices :=
          if (s.port p).notices.length < Config.maxNotices then (s.port p).notices ++ [n] else (s.port p).notices
        overflow := if (s.port p).notices.length < Config.maxNotices then (s.port p).overflow else true } := by
  rw [State.notify, PortUnit.append_eq]

/-- The close of a loan changes the loan, the write queue and, from a full table, the engine (R44). -/
theorem State.closeLoan_eq (tag : Nat) (u : WriteUnit) (s : State) :
    s.closeLoan tag u =
      { s with
        loans := Table.erase tag s.loans
        writeQueue := s.writeQueue ++ [.loan tag none :: u]
        writeDeadline := (s.hand (.loan tag none :: u)).writeDeadline
        engine := if s.loans.length = Config.maxLoans then s.trigger.engine else s.engine } := by
  unfold State.closeLoan
  simp only
  split <;> rfl

/-- A job's leaving changes the queue and, from 24 jobs, the engine (R87). -/
theorem State.leaveQueue_eq (tag : Nat) (s : State) :
    s.leaveQueue tag =
      { s with
        copyQueue := if s.copyQueue.any (fun j => j.tag == tag) then s.copyQueue.filter (fun j => j.tag != tag) else s.copyQueue
        engine :=
          if s.copyQueue.any (fun j => j.tag == tag) = true ∧ s.copyQueue.length = Config.maxJobs then s.trigger.engine
          else s.engine } := by
  unfold State.leaveQueue
  split
  · rename_i h
    simp only [h, true_and]
    split <;> rfl
  · rename_i h
    simp only [h]
    rfl

/-- A fall of returns open changes that reader's record only (R30). -/
theorem State.lowerReturnsOpen_eq (number : Nat) (s : State) :
    s.lowerReturnsOpen number =
      { s with
        patrons := match s.patrons.find? (fun e => e.2.number == number) with
          | none => s.patrons
          | some (slot, p) => Table.set slot { p with returnsOpen := p.returnsOpen - 1 } s.patrons } := by
  unfold State.lowerReturnsOpen State.reader
  cases s.patrons.find? (fun e => e.2.number == number) <;> rfl

/-- A fall of loans-out changes that reader's record, and raises a trigger (R29). -/
theorem State.lowerLoansOut_eq (number : Nat) (s : State) :
    s.lowerLoansOut number =
      { s with
        patrons := match s.patrons.find? (fun e => e.2.number == number) with
          | none => s.patrons
          | some (slot, p) => Table.set slot { p with loansOut := p.loansOut - 1 } s.patrons
        engine := match s.patrons.find? (fun e => e.2.number == number) with
          | none => s.engine
          | some _ => s.trigger.engine } := by
  unfold State.lowerLoansOut State.reader
  cases s.patrons.find? (fun e => e.2.number == number) <;> rfl

/-- A bay's erase changes the bays only (R97). -/
theorem State.startErase_eq (b : BayNo) (s : State) : s.startErase b = { s with bays := (s.startErase b).bays } := by
  unfold State.startErase State.sendErase
  simp only
  split <;> rfl

/-! ### The hand-over of jobs -/

/-- Whether a job is ready depends on the copy queue alone. -/
theorem State.noneReady_congr {s t : State} (h : s.noneReady) (hq : t.copyQueue = s.copyQueue) : t.noneReady := by
  unfold State.noneReady
  rw [hq]
  exact h

/-- With no job ready there is no takeable job. -/
theorem State.takeable_noneReady {s : State} (h : s.noneReady) : s.takeable = none := by
  simp only [State.takeable, List.findSome?_eq_none_iff]
  intro j hj
  rcases h j hj with h1 | h1
  · cases hh : j.holder with
    | none => exact absurd hh h1
    | some c => rfl
  · rw [h1]
    cases j.holder <;> rfl

/-- With no job ready the copy queue hands none over. -/
theorem State.handOver_noneReady {s : State} (h : s.noneReady) : s.handOver = s := by
  unfold State.handOver
  cases s.copyQueue.length with
  | zero => rfl
  | succ n =>
    simp only [handOverUpTo, State.takeable_noneReady h]
    cases s.idleChannel <;> rfl

/-- With no channel IDLE the copy queue hands no job over. -/
theorem State.handOver_noChannel {s : State} (h : s.idleChannel = none) : s.handOver = s := by
  unfold State.handOver
  cases s.copyQueue.length with
  | zero => rfl
  | succ n => simp [handOverUpTo, h]

/-! ### The blank pool -/

/-- No pool bay fits exactly where every pool bay is smaller (R76). -/
theorem State.firstFit_none {s : State} {need : Nat} :
    s.firstFit need = none ↔ ∀ b, (s.bay b).inPool = true → (s.bay b).usable < need := by
  let f : Option BayNo → BayNo → Option BayNo := fun best b =>
      if (s.bay b).inPool ∧ need ≤ (s.bay b).usable then
        match best with
        | none => some b
        | some c => if (s.bay b).usable < (s.bay c).usable then some b else best
      else best
  have some_stays : ∀ (l : List BayNo) (c : BayNo), ∃ d, l.foldl f (some c) = some d := by
    intro l
    induction l with
    | nil => intro c; exact ⟨c, rfl⟩
    | cons b l ih =>
      intro c
      simp only [List.foldl_cons, f]
      split
      · split
        · exact ih b
        · exact ih c
      · exact ih c
  have key : ∀ l : List BayNo, l.foldl f none = none ↔ ∀ b ∈ l, (s.bay b).inPool = true → (s.bay b).usable < need := by
    intro l
    induction l with
    | nil => simp
    | cons b l ih =>
      simp only [List.foldl_cons]
      by_cases h : (s.bay b).inPool ∧ need ≤ (s.bay b).usable
      · have : f none b = some b := by simp only [f]; rw [if_pos h]
        rw [this]
        obtain ⟨d, hd⟩ := some_stays l b
        rw [hd]
        constructor
        · intro h; cases h
        · intro h2; have := h2 b (List.mem_cons_self ..) h.1; omega
      · have : f none b = none := by simp only [f]; rw [if_neg h]
        rw [this, ih]
        constructor
        · intro h2 c hc
          rcases List.mem_cons.mp hc with rfl | hc
          · intro hp; by_contra hn; exact h ⟨hp, by omega⟩
          · exact h2 c hc
        · intro h2 c hc; exact h2 c (List.mem_cons_of_mem _ hc)
  show List.foldl f none allBays = none ↔ _
  rw [key]
  simp [allBays]

/-- The holder of a cartridge line is a channel's matter (R92). -/
@[simp] theorem State.lineHeld_setBay (s : State) (b c : BayNo) (x : Bay) : (s.setBay b x).lineHeld c = s.lineHeld c :=
  rfl

/-! ### The store arbiter (R12) -/

/-- A path that is granted is granted no second time. -/
theorem State.arbitrate_busy {s : State} (h : s.grant ≠ none) : s.arbitrate = s := by
  simp [State.arbitrate, Option.isSome_iff_ne_none, h]

/-- With no requester asking, the free path stays free. -/
theorem State.arbitrate_idle {s : State} (h : ∀ x, s.requesting x = false) : s.arbitrate = s := by
  have n : s.nextRequester = none := by simp [State.nextRequester, h]
  unfold State.arbitrate
  split
  · rfl
  · rw [n]

/-- The next requester is the first of the ring that asks. -/
theorem State.nextRequester_first {s : State} {front back : List Requester} {x : Requester}
    (hr : [s.searchFrom, s.searchFrom.after, s.searchFrom.after.after] = front ++ x :: back)
    (hf : ∀ y ∈ front, s.requesting y = false) (hx : s.requesting x = true) : s.nextRequester = some x := by
  rw [State.nextRequester, hr, List.find?_append, List.find?_eq_none.mpr (by simpa using hf)]
  simp [hx]

/-- The free path is granted to the channel that is the first of the ring to ask. -/
theorem State.arbitrate_chan {s : State} {x : Requester} (hg : s.grant = none) (hx : s.nextRequester = some x)
    (hne : x ≠ .staging) : s.arbitrate = s.give x := by
  unfold State.arbitrate
  rw [hx, hg]
  cases x <;> first | rfl | exact absurd rfl hne

/-- The free path is granted to the staging writer, the first of the ring to ask, for a title that is STAGING. -/
theorem State.arbitrate_staging {s : State} {b : StagedBlock} (hg : s.grant = none)
    (hx : s.nextRequester = some .staging) (hb : s.stagingWriter = some b) (hs : s.isStaging b.title = true) :
    s.arbitrate = s.give .staging := by
  simp [State.arbitrate, hx, hg, hb, hs]

/-- A staged block whose title has left STAGING is discarded in its turn, and the search goes on (R9). -/
theorem State.arbitrate_discard {s : State} {b : StagedBlock} (hg : s.grant = none)
    (hx : s.nextRequester = some .staging) (hb : s.stagingWriter = some b) (hs : s.isStaging b.title = false) :
    (s.discardStaged.nextRequester = none → s.arbitrate = s.discardStaged) ∧
      ∀ r, s.discardStaged.nextRequester = some r → s.arbitrate = s.discardStaged.give r := by
  constructor
  · intro h
    simp [State.arbitrate, hx, hg, hb, hs, h]
  · intro r h
    simp [State.arbitrate, hx, hg, hb, hs, h]

/-! ### The boundary of a stopping channel (R126) -/

/-- A channel whose job has left the queue releases its bay's line and nothing else. -/
theorem State.release_gone {s : State} {c : Chan} {b : BayNo} {tag : Nat} (hb : (s.chan c).bay = some b)
    (ht : (s.chan c).tag = some tag) (hj : s.job tag = none) : s.release c = (s.setChan c .cleared).lineFreed b := by
  have h : ((s.setChan c .cleared).lineFreed b).job tag = none := by
    rw [← hj]
    simp only [State.lineFreed, State.sendErase, State.sendIdentity]
    cases c <;> (split <;> split <;> rfl)
  simp only [State.release, hb, ht, h]

/-- The line of a bay that no other channel has is free once its channel is cleared (R92). -/
theorem State.lineHeld_cleared {s : State} {c : Chan} {b : BayNo} (h : ∀ d, d ≠ c → (s.chan d).bay ≠ some b) :
    (s.setChan c .cleared).lineHeld b = false := by
  cases c with
  | a =>
    have := h .b (by decide)
    simp only [State.chan] at this
    simp [State.lineHeld, State.setChan, Channel.cleared, this]
  | b =>
    have := h .a (by decide)
    simp only [State.chan] at this
    simp [State.lineHeld, State.setChan, Channel.cleared, this]

/-- The erase that waits for a line is sent when its channel is cleared (R97, R103). -/
theorem State.lineFreed_erase {s : State} {c : Chan} {b : BayNo} (h : ∀ d, d ≠ c → (s.chan d).bay ≠ some b)
    (he : (s.bay b).state = .erasing) (hs : (s.bay b).eraseStarted = false) :
    (s.setChan c .cleared).lineFreed b =
      (s.setBay b
        { s.bay b with
          eraseStarted := true, command := some (.erase, s.now + s.eraseTimeLimit), ready := false }).setChan c
        .cleared := by
  have hb : (s.setChan c .cleared).bay b = s.bay b := by cases c <;> rfl
  have sent : (s.setChan c .cleared).sendErase b =
      (s.setBay b
        { s.bay b with
          eraseStarted := true, command := some (.erase, s.now + s.eraseTimeLimit), ready := false }).setChan c
        .cleared := by
    simp only [State.sendErase, hb]
    rw [if_pos ⟨he, hs, State.lineHeld_cleared h⟩]
    cases c <;> rfl
  rw [State.lineFreed, sent, State.sendIdentity, if_neg]
  cases c <;> simp [State.setChan, State.bay, State.setBay]

/-! ### Lamp codes -/

/-- A bay changed within its state keeps every lamp code. -/
theorem lampWord_setBay {s : State} {b : BayNo} {x : Bay} (h : x.state = (s.bay b).state) :
    lampWord (s.setBay b x).bays = lampWord s.bays := by
  have key : ∀ (l : List Bay) (n : Nat) (hn : n < l.length), x.state = l[n].state → ∀ acc,
      (l.set n x).foldr (fun y acc => y.state.lampCode + 4 * acc) acc =
        l.foldr (fun y acc => y.state.lampCode + 4 * acc) acc := by
    intro l
    induction l with
    | nil => intro n hn; simp at hn
    | cons y l ih =>
      intro n hn hx acc
      cases n with
      | zero => simp at hx; simp [hx]
      | succ n =>
        simp only [List.set_cons_succ, List.foldr_cons]
        rw [ih n (by simpa using hn) (by simpa using hx)]
  unfold lampWord State.setBay
  simp only [Vector.toList_set]
  rw [key s.bays.toList b.val (by simp) (by simpa [State.bay] using h)]

/-- An event that changes bays within their states leaves the lamp chain alone. -/
theorem lampAfter_word {before after : State} (h : lampWord after.bays = lampWord before.bays) :
    lampAfter before after = after := by
  simp [lampAfter, h]

/-- A command whose event hands no unit and changes no lamp code: the event's own effect. -/
theorem exec_word {i e : Instr} {g : State → State} {s t : State} (hi : exec i s = .next (commit e g s)) (ht : g s = t)
    (hw : t.writeQueue = s.writeQueue) (hb : lampWord t.bays = lampWord s.bays) : exec i s = .next t := by
  rw [exec_noUnit hi ht hw, lampAfter_word hb]

/-! ### Pins -/

/-- What the release of a pin can change: the titles, the free-extent map and the write queue. -/
theorem State.unpin_changes (n : Nat) (s : State) :
    ∃ ts fm wq wd, s.unpin n = { s with titles := ts, freeMap := fm, writeQueue := wq, writeDeadline := wd } := by
  unfold State.unpin
  split
  · simp only
    split
    · unfold State.settleUnpinned
      split <;> exact ⟨_, _, _, _, rfl⟩
    · exact ⟨_, _, _, _, rfl⟩
  · exact ⟨_, _, _, _, rfl⟩

/-- What the release of a loan's pins can change: the titles, the free-extent map and the write queue. -/
theorem State.unpinAll_changes (es : List PlanEntry) (s : State) :
    ∃ ts fm wq wd, s.unpinAll es = { s with titles := ts, freeMap := fm, writeQueue := wq, writeDeadline := wd } := by
  induction es generalizing s with
  | nil => exact ⟨_, _, _, _, rfl⟩
  | cons e es ih =>
    obtain ⟨_, _, _, _, h⟩ := ih (s.unpin e.title)
    obtain ⟨_, _, _, _, h1⟩ := s.unpin_changes e.title
    rw [h1] at h
    simp only [State.unpinAll, List.foldl_cons, h1] at h ⊢
    exact ⟨_, _, _, _, h⟩

end Sys2Proof.Machine
end

