-- ==== Sys2Proof/Laws/Tables.lean ====
section
/-! SUPPORT. The laws of keyed tables and of the title store's content: what a read gives after a write, and that every
write keeps the canonical form. -/

namespace Sys2Proof.Machine

variable {α : Type}

/-! ### Reads after writes -/

@[simp] theorem Table.find_set_self (k : Nat) (a : α) (t : Table α) : Table.find k (Table.set k a t) = some a := by
  induction t with
  | nil => simp [Table.set, Table.find]
  | cons e t ih =>
    obtain ⟨j, b⟩ := e
    simp only [Table.set]
    split
    · simp [Table.find]
    · split
      · simp [Table.find]
      · rename_i h1 h2
        simp [Table.find, Ne.symm h2, ih]

theorem Table.find_set_other {k j : Nat} (h : j ≠ k) (a : α) (t : Table α) :
    Table.find j (Table.set k a t) = Table.find j t := by
  induction t with
  | nil => simp [Table.set, Table.find, Ne.symm h]
  | cons e t ih =>
    obtain ⟨i, b⟩ := e
    simp only [Table.set]
    split
    · simp [Table.find, Ne.symm h]
    · split
      · rename_i h1 h2
        subst h2
        simp [Table.find, Ne.symm h]
      · simp [Table.find, ih]

theorem Table.find_erase_other {k j : Nat} (h : j ≠ k) (t : Table α) :
    Table.find j (Table.erase k t) = Table.find j t := by
  induction t with
  | nil => rfl
  | cons e t ih =>
    obtain ⟨i, b⟩ := e
    simp only [Table.erase]
    split
    · rename_i hi
      subst hi
      simp [Table.find, Ne.symm h]
    · simp [Table.find, ih]

/-- An entry put under a key is not above that key, and what is above it stays (R60). -/
@[simp] theorem Table.above_set {α : Type} (k : Nat) (a : α) (t : Table α) : Table.above k (Table.set k a t) = Table.above k t := by
  induction t with
  | nil => simp [Table.set, Table.above]
  | cons e t ih =>
    obtain ⟨j, b⟩ := e
    simp only [Table.set]
    split
    · simp [Table.above]
    · split
      · rename_i h
        simp [Table.above, h]
      · simp [Table.above, ih]

/-- Every key of a table lies above `k`. -/
def Table.allAbove (k : Nat) (t : Table α) : Prop := ∀ e ∈ t, k < e.1

theorem Table.sorted_cons (e : Nat × α) (t : Table α) :
    Table.sorted (e :: t) = true ↔ Table.allAbove e.1 t ∧ Table.sorted t = true := by
  induction t generalizing e with
  | nil => simp [Table.sorted, Table.allAbove]
  | cons f t ih =>
    obtain ⟨j, a⟩ := e
    obtain ⟨k, b⟩ := f
    simp only [Table.sorted, Bool.and_eq_true, decide_eq_true_eq, ih]
    constructor
    · rintro ⟨h, hab, hs⟩
      refine ⟨?_, hab, hs⟩
      intro e he
      rcases List.mem_cons.mp he with rfl | he
      · exact h
      · exact Nat.lt_trans h (hab e he)
    · rintro ⟨h, hab, hs⟩
      exact ⟨h _ (List.mem_cons_self ..), hab, hs⟩

/-- The keys of a sorted table rise. -/
theorem Table.sorted_keys {t : Table α} (h : Table.sorted t = true) : (t.map (fun e => e.1)).Pairwise (· < ·) := by
  induction t with
  | nil => exact List.Pairwise.nil
  | cons e t ih =>
    obtain ⟨hab, hs⟩ := (Table.sorted_cons _ _).mp h
    refine List.pairwise_cons.mpr ⟨fun k hk => ?_, ih hs⟩
    obtain ⟨f, hf, rfl⟩ := List.mem_map.mp hk
    exact hab f hf

theorem Table.find_none_of_allAbove {k : Nat} {t : Table α} (h : Table.allAbove k t) : Table.find k t = none := by
  induction t with
  | nil => rfl
  | cons e t ih =>
    obtain ⟨j, b⟩ := e
    have hj : k < j := h (j, b) (List.mem_cons_self ..)
    simp only [Table.find]
    rw [if_neg (by omega)]
    exact ih (fun x hx => h x (List.mem_cons_of_mem _ hx))

theorem Table.find_erase_self {k : Nat} {t : Table α} (h : Table.sorted t = true) : Table.find k (Table.erase k t) = none := by
  induction t with
  | nil => rfl
  | cons e t ih =>
    obtain ⟨j, b⟩ := e
    obtain ⟨hab, hs⟩ := (Table.sorted_cons _ _).mp h
    simp only [Table.erase]
    split
    · rename_i hj
      subst hj
      exact Table.find_none_of_allAbove hab
    · rename_i hj
      simp [Table.find, hj, ih hs]

/-! ### The canonical form is kept -/

theorem Table.mem_set {k : Nat} {a : α} {t : Table α} {e : Nat × α} (h : e ∈ Table.set k a t) : e = (k, a) ∨ e ∈ t := by
  induction t with
  | nil => simpa [Table.set] using h
  | cons f t ih =>
    obtain ⟨j, b⟩ := f
    simp only [Table.set] at h
    split at h
    · rcases List.mem_cons.mp h with h | h
      · exact .inl h
      · exact .inr h
    · split at h
      · rcases List.mem_cons.mp h with h | h
        · exact .inl h
        · exact .inr (List.mem_cons_of_mem _ h)
      · rcases List.mem_cons.mp h with h | h
        · exact .inr (h ▸ List.mem_cons_self ..)
        · rcases ih h with h | h
          · exact .inl h
          · exact .inr (List.mem_cons_of_mem _ h)

theorem Table.mem_erase {k : Nat} {t : Table α} {e : Nat × α} (h : e ∈ Table.erase k t) : e ∈ t := by
  induction t with
  | nil => exact h
  | cons f t ih =>
    obtain ⟨j, b⟩ := f
    simp only [Table.erase] at h
    split at h
    · exact List.mem_cons_of_mem _ h
    · rcases List.mem_cons.mp h with h | h
      · exact h ▸ List.mem_cons_self ..
      · exact List.mem_cons_of_mem _ (ih h)

/-- An entry of a sorted table is what its key finds. -/
theorem Table.find_mem {k : Nat} {a : α} {t : Table α} (h : Table.sorted t = true) (m : (k, a) ∈ t) :
    Table.find k t = some a := by
  induction t with
  | nil => cases m
  | cons e t ih =>
    obtain ⟨above, h'⟩ := (Table.sorted_cons _ _).mp h
    rcases List.mem_cons.mp m with rfl | m
    · simp [Table.find]
    · have below := above _ m
      simp only [Table.find]
      rw [if_neg (by simp at below; omega)]
      exact ih h' m

/-- What a key finds is an entry of the table. -/
theorem Table.mem_find {k : Nat} {a : α} {t : Table α} (h : Table.find k t = some a) : (k, a) ∈ t := by
  induction t with
  | nil => cases h
  | cons e t ih =>
    obtain ⟨j, b⟩ := e
    simp only [Table.find] at h
    split at h
    · rename_i hj
      subst hj
      cases h
      exact List.mem_cons_self ..
    · exact List.mem_cons_of_mem _ (ih h)

theorem Table.sorted_set (k : Nat) (a : α) {t : Table α} (h : Table.sorted t = true) :
    Table.sorted (Table.set k a t) = true := by
  induction t with
  | nil => rfl
  | cons e t ih =>
    obtain ⟨j, b⟩ := e
    obtain ⟨hab, hs⟩ := (Table.sorted_cons _ _).mp h
    simp only [Table.set]
    split
    · rename_i hk
      refine (Table.sorted_cons _ _).mpr ⟨?_, h⟩
      intro x hx
      rcases List.mem_cons.mp hx with rfl | hx
      · exact hk
      · exact Nat.lt_trans hk (hab x hx)
    · split
      · rename_i hk
        subst hk
        exact (Table.sorted_cons _ _).mpr ⟨hab, hs⟩
      · rename_i h1 h2
        refine (Table.sorted_cons _ _).mpr ⟨?_, ih hs⟩
        intro x hx
        rcases Table.mem_set hx with rfl | hx
        · show j < k
          omega
        · exact hab x hx

theorem Table.sorted_erase (k : Nat) {t : Table α} (h : Table.sorted t = true) : Table.sorted (Table.erase k t) = true := by
  induction t with
  | nil => rfl
  | cons e t ih =>
    obtain ⟨j, b⟩ := e
    obtain ⟨hab, hs⟩ := (Table.sorted_cons _ _).mp h
    simp only [Table.erase]
    split
    · exact hs
    · exact (Table.sorted_cons _ _).mpr ⟨fun x hx => hab x (Table.mem_erase hx), ih hs⟩

/-! ### The title store -/

@[simp] theorem readStore_writeStore_self {t : Table (List Byte)} (h : storeWf t = true) (block : Nat) (bytes : List Byte) :
    readStore (writeStore block bytes t) block = bytes := by
  have hs : Table.sorted t = true := by
    simp only [storeWf, Bool.and_eq_true] at h
    exact h.1
  unfold writeStore readStore
  split
  · rename_i he
    simp [Table.find_erase_self hs, he]
  · simp

theorem readStore_writeStore_other {block other : Nat} (h : other ≠ block) (bytes : List Byte) (t : Table (List Byte)) :
    readStore (writeStore block bytes t) other = readStore t other := by
  unfold writeStore readStore
  split
  · rw [Table.find_erase_other h]
  · rw [Table.find_set_other h]

/-- A write keeps the canonical form of the title store. -/
theorem writeStore_wf {t : Table (List Byte)} (h : storeWf t = true) (block : Nat) (bytes : List Byte) :
    storeWf (writeStore block bytes t) = true := by
  simp only [storeWf, Bool.and_eq_true, List.all_eq_true] at h ⊢
  obtain ⟨hs, ha⟩ := h
  unfold writeStore
  split
  · exact ⟨Table.sorted_erase _ hs, fun e he => ha e (Table.mem_erase he)⟩
  · rename_i hne
    refine ⟨Table.sorted_set _ _ hs, fun e he => ?_⟩
    rcases Table.mem_set he with rfl | he
    · simpa using hne
    · exact ha e he

/-- The title store's content at reset has the canonical form. -/
theorem reset_storeWf : storeWf State.reset.store = true := rfl

end Sys2Proof.Machine
end

