-- ==== Sys2Proof/Laws/Bins.lean ====
section
/-! SUPPORT. What the release of a route bin can do (R51, R146), and what a setting reads as once written (R193). -/

namespace Sys2Proof.Machine

/-! ### Settings -/

/-- A setting reads as it was written. -/
theorem setting_writeSetting {n v : Nat} {t : Table Nat} (h : Table.sorted t = true) :
    (Table.find n (writeSetting n v t)).getD (paramDefault n) = v := by
  unfold writeSetting
  split
  · rename_i hv
    rw [Table.find_erase_self h, hv]
    rfl
  · rw [Table.find_set_self]
    rfl

/-! ### The release of a bin -/

/-- A value that is absent counts as 0. -/
theorem orZero_eq (o : Option Nat) : orZero o = o.getD 0 := by cases o <;> rfl

/-- The loan records after a list of loans has been released on a day, with their changes (R51). -/
def mailedLoans (today : Nat) (loans : Table Loan) : List Nat → Table Loan × WriteUnit
  | [] => (loans, [])
  | tag :: rest =>
    match Table.find tag loans with
    | none => mailedLoans today loans rest
    | some l =>
      let x := mailedLoans today (Table.set tag (l.mail today) loans) rest
      (x.1, .loan tag (some (l.mail today)) :: x.2)

/-- All that a release does to the loan records: the loans listed are MAILED that day, every other one is as it was, and
one change each is handed, in the list's order (R51). -/
theorem mailedLoans_spec {today : Nat} {held : List (Nat × Loan)} {loans : Table Loan}
    (once : (held.map (fun x => x.1)).Nodup) (found : ∀ x ∈ held, Table.find x.1 loans = some x.2) :
    let r := mailedLoans today loans (held.map (fun x => x.1))
    (∀ x ∈ held, Table.find x.1 r.1 = some (x.2.mail today)) ∧
    (∀ tag, tag ∉ held.map (fun x => x.1) → Table.find tag r.1 = Table.find tag loans) ∧
    r.2 = held.map (fun x => Change.loan x.1 (some (x.2.mail today))) := by
  induction held generalizing loans with
  | nil => exact ⟨by simp, by simp [mailedLoans], rfl⟩
  | cons e held ih =>
    simp only [List.map_cons, List.nodup_cons] at once
    have head := found e (List.mem_cons_self ..)
    have other : ∀ x ∈ held, x.1 ≠ e.1 := fun x hx he => once.1 (he ▸ List.mem_map.mpr ⟨x, hx, rfl⟩)
    obtain ⟨i1, i2, i3⟩ := ih (loans := Table.set e.1 (e.2.mail today) loans) once.2 fun x hx => by
      rw [Table.find_set_other (other x hx)]
      exact found x (List.mem_cons_of_mem _ hx)
    simp only [List.map_cons, mailedLoans, head]
    refine ⟨?_, ?_, by rw [i3]⟩
    · intro x hx
      rcases List.mem_cons.mp hx with rfl | hx
      · rw [i2 _ once.1]; exact Table.find_set_self ..
      · exact i1 x hx
    · intro tag ht
      simp only [List.mem_cons, not_or] at ht
      rw [i2 tag ht.2, Table.find_set_other ht.1]

/-- The loans of a list becoming MAILED changes the loan records only. -/
theorem State.mailLoans_eq (s : State) (tags : List Nat) :
    s.mailLoans tags =
      ({ s with loans := (mailedLoans s.dayCount s.loans tags).1 }, (mailedLoans s.dayCount s.loans tags).2) := by
  induction tags generalizing s with
  | nil => rfl
  | cons tag rest ih =>
    simp only [State.mailLoans, mailedLoans, State.loan]
    cases h : Table.find tag s.loans with
    | none => exact ih s
    | some l => simp only [ih]; rfl

/-- The release of a bin: its loans MAILED, the bin CLOSED with an empty list, the changes in one unit, BAG RELEASED on
both ports (R51, R146, R152). -/
theorem State.releaseBin_eq (r : RouteNo) (u : WriteUnit) (s : State) :
    s.releaseBin r u =
      (({ s with
          loans := (mailedLoans s.dayCount s.loans (s.bin r).list).1
          bins := s.bins.set r { state := .closed, list := [], closeTimer := none } }).hand
        (u ++ (mailedLoans s.dayCount s.loans (s.bin r).list).2 ++ [Change.bin r { state := .closed, list := [] }])).notifyBoth
        (note .bagReleased r.val
          [(s.bin r).list.length, orZero (s.bin r).list.head?, orZero (s.bin r).list.getLast?]) := by
  simp only [State.releaseBin, State.mailLoans_eq]
  rfl

/-- The release of a bin leaves the bays alone. -/
@[simp] theorem State.releaseBin_bays (r : RouteNo) (u : WriteUnit) (s : State) : (s.releaseBin r u).bays = s.bays := by
  rw [State.releaseBin_eq]
  simp [State.notifyBoth]

end Sys2Proof.Machine
end

