-- ==== Sys2Proof/Laws/Choice.lean ====
section
/-! SUPPORT. What the choices of the part give: the runs of an allocation (R5), the title to evict (R6), the smallest
fitting bay (R73), and what the pins of a plan leave in the directory (R86). -/

namespace Sys2Proof.Machine

/-! ### Allocation -/

theorem longestRun_mem {free : List Run} {r : Run} (h : longestRun free = some r) :
    r ∈ free ∧ ∀ x ∈ free, x.count ≤ r.count := by
  induction free generalizing r with
  | nil => cases h
  | cons x xs ih =>
    simp only [longestRun] at h
    cases hx : longestRun xs with
    | none =>
      rw [hx] at h
      cases h
      cases xs with
      | nil => simp
      | cons y ys => simp only [longestRun] at hx; split at hx <;> (try split at hx) <;> cases hx
    | some y =>
      rw [hx] at h
      simp only at h
      obtain ⟨h1, h2⟩ := ih hx
      split at h <;> cases h
      · refine ⟨List.mem_cons_of_mem _ h1, fun z hz => ?_⟩
        rcases List.mem_cons.mp hz with rfl | hz
        · omega
        · exact h2 z hz
      · refine ⟨List.mem_cons_self .., fun z hz => ?_⟩
        rcases List.mem_cons.mp hz with rfl | hz
        · omega
        · have := h2 z hz
          omega

/-- The longest run, the lowest of equals (R5). -/
theorem longestRun_split {front back : List Run} {r : Run} (before : ∀ x ∈ front, x.count < r.count)
    (behind : ∀ x ∈ back, x.count ≤ r.count) : longestRun (front ++ r :: back) = some r := by
  induction front with
  | nil =>
    simp only [List.nil_append, longestRun]
    cases h : longestRun back with
    | none => rfl
    | some y =>
      have := behind y (longestRun_mem h).1
      simp only
      rw [if_neg (by omega)]
  | cons x xs ih =>
    simp only [List.cons_append, longestRun]
    rw [ih (fun y hy => before y (List.mem_cons_of_mem _ hy))]
    have := before x (List.mem_cons_self ..)
    simp only
    rw [if_pos this]

/-- No runs are found where neither one run nor two are long enough (R5). -/
theorem allocate_none {need : Nat} {free : List Run}
    (h : ∀ x ∈ free, x.count < need ∧ ∀ y ∈ free, y ≠ x → x.count + y.count < need) : allocate need free = none := by
  unfold allocate
  have h1 : free.find? (fun r => decide (need ≤ r.count)) = none := by
    rw [List.find?_eq_none]
    intro x hx
    have := (h x hx).1
    simp
    omega
  rw [h1]
  simp only
  split
  · rfl
  · rename_i r1 hr
    have h2 : (free.filter (fun r => r != r1)).find? (fun r => decide (need - r1.count ≤ r.count)) = none := by
      rw [List.find?_eq_none]
      intro x hx
      rw [List.mem_filter] at hx
      have := (h r1 (longestRun_mem hr).1).2 x hx.1 (by simpa using hx.2)
      simp
      omega
    rw [h2]

/-! ### The title to evict -/

/-- No title is evicted where none is RESIDENT and unpinned (R6). -/
theorem victim_none {titles : Table Title}
    (h : ∀ e ∈ titles, ∀ k, e.2.body = .cart k → k.state ≠ .resident ∨ k.pins ≠ 0) : victim titles = none := by
  induction titles with
  | nil => rfl
  | cons e rest ih =>
    obtain ⟨n, t⟩ := e
    have ih := ih (fun e he => h e (List.mem_cons_of_mem _ he))
    simp only [victim]
    cases hb : t.body with
    | vol v => exact ih
    | cart c =>
      have := h (n, t) (List.mem_cons_self ..) c hb
      simp only
      rw [if_neg (by tauto)]
      exact ih

theorem victim_mem {titles : Table Title} {v : Nat × Bool × CartTitle} (h : victim titles = some v) :
    (v.1, { withdrawing := v.2.1, body := .cart v.2.2 }) ∈ titles ∧ v.2.2.state = .resident ∧ v.2.2.pins = 0 := by
  induction titles generalizing v with
  | nil => cases h
  | cons e rest ih =>
    obtain ⟨n, ⟨w, body⟩⟩ := e
    simp only [victim] at h
    cases body with
    | vol x => exact (ih h).imp_left (List.mem_cons_of_mem _)
    | cart c =>
      simp only at h
      split at h
      · rename_i hc
        split at h
        · cases h
          exact ⟨List.mem_cons_self .., hc⟩
        · rename_i x hx
          split at h <;> cases h
          · exact (ih hx).imp_left (List.mem_cons_of_mem _)
          · exact ⟨List.mem_cons_self .., hc⟩
      · exact (ih h).imp_left (List.mem_cons_of_mem _)

theorem victim_le {titles : Table Title} (h : Table.sorted titles = true) {n : Nat} {w : Bool} {k : CartTitle}
    (m : (n, { withdrawing := w, body := .cart k }) ∈ titles) (hk : k.state = .resident ∧ k.pins = 0) :
    ∃ v, victim titles = some v ∧
      (v.2.2.lastUse < k.lastUse ∨ (v.2.2.lastUse = k.lastUse ∧ v.1 ≤ n)) := by
  induction titles with
  | nil => cases m
  | cons e rest ih =>
    obtain ⟨above, h'⟩ := (Table.sorted_cons _ _).mp h
    simp only [victim]
    rcases List.mem_cons.mp m with hm | hm
    · cases hm
      simp only
      rw [if_pos hk]
      split
      · exact ⟨_, rfl, .inr ⟨rfl, le_refl _⟩⟩
      · split
        · exact ⟨_, rfl, .inl ‹_›⟩
        · exact ⟨_, rfl, .inr ⟨rfl, le_refl _⟩⟩
    · obtain ⟨v, hv, hle⟩ := ih h' hm
      have below := above _ hm
      split
      · split
        · rw [hv]
          simp only
          split
          · exact ⟨_, rfl, hle⟩
          · exact ⟨_, rfl, by simp only at below ⊢; omega⟩
        · exact ⟨_, hv, hle⟩
      · exact ⟨_, hv, hle⟩

/-- The title to evict is the RESIDENT unpinned one of the oldest last-use day, then of the lowest number (R6). -/
theorem victim_eq {titles : Table Title} (h : Table.sorted titles = true) {n : Nat} {w : Bool} {k : CartTitle}
    (found : Table.find n titles = some { withdrawing := w, body := .cart k }) (hk : k.state = .resident ∧ k.pins = 0)
    (least : ∀ x w' k', x ≠ n → Table.find x titles = some { withdrawing := w', body := .cart k' } →
      k'.state = .resident → k'.pins = 0 → k.lastUse < k'.lastUse ∨ (k.lastUse = k'.lastUse ∧ n < x)) :
    victim titles = some (n, w, k) := by
  obtain ⟨v, hv, hle⟩ := victim_le h (Table.mem_find found) hk
  obtain ⟨hm, hr, hp⟩ := victim_mem hv
  have hf := Table.find_mem h hm
  by_cases he : v.1 = n
  · obtain ⟨a, b, c⟩ := v
    simp only at he
    subst he
    rw [found] at hf
    cases hf
    exact hv
  · have := least v.1 _ _ he hf hr hp
    omega

/-! ### The smallest fitting bay -/

theorem Bay.inPool_iff (x : Bay) : x.inPool = true ↔ x.state = .blank ∧ x.releasePending = false := by
  simp [Bay.inPool]

/-- The bay of the smallest usable capacity that is enough, the lowest of equals (R73). -/
theorem State.firstFit_some {s : State} {need : Nat} {b : BayNo} (pool : (s.bay b).inPool = true)
    (fits : need ≤ (s.bay b).usable)
    (least : ∀ x, (s.bay x).inPool = true → need ≤ (s.bay x).usable →
      (s.bay b).usable < (s.bay x).usable ∨ ((s.bay b).usable = (s.bay x).usable ∧ b.val ≤ x.val)) :
    s.firstFit need = some b := by
  let f : Option BayNo → BayNo → Option BayNo := fun best b =>
    if (s.bay b).inPool ∧ need ≤ (s.bay b).usable then
      match best with
      | none => some b
      | some c => if (s.bay b).usable < (s.bay c).usable then some b else best
    else best
  have stay : ∀ l : List BayNo, l.foldl f (some b) = some b := by
    intro l
    induction l with
    | nil => rfl
    | cons x l ih =>
      have : f (some b) x = some b := by
        simp only [f]
        split
        · rename_i hx
          have := least x hx.1 hx.2
          rw [if_neg (by omega)]
        · rfl
      rw [List.foldl_cons, this]
      exact ih
  have key : ∀ (l : List BayNo) (best : Option BayNo), b ∈ l → l.Pairwise (· < ·) →
      (∀ c, best = some c → (s.bay c).inPool = true ∧ need ≤ (s.bay c).usable ∧ c < b) → l.foldl f best = some b := by
    intro l
    induction l with
    | nil => intro best h; cases h
    | cons x l ih =>
      intro best hb hp hc
      rw [List.pairwise_cons] at hp
      rw [List.foldl_cons]
      rcases List.mem_cons.mp hb with rfl | hb
      · have : f best b = some b := by
          simp only [f]
          rw [if_pos ⟨pool, fits⟩]
          cases best with
          | none => rfl
          | some c =>
            obtain ⟨c1, c2, c3⟩ := hc c rfl
            have h1 := least c c1 c2
            have h2 : c.val < b.val := c3
            simp only
            rw [if_pos (by omega)]
        rw [this]
        exact stay l
      · refine ih _ hb hp.2 fun c hc2 => ?_
        have hxb : x < b := hp.1 b hb
        simp only [f] at hc2
        split at hc2
        · rename_i hx
          split at hc2
          · cases hc2; exact ⟨hx.1, hx.2, hxb⟩
          · split at hc2
            · cases hc2; exact ⟨hx.1, hx.2, hxb⟩
            · cases hc2; exact hc _ rfl
        · exact hc c hc2
  exact key allBays none (List.mem_finRange _) (List.pairwise_lt_finRange 16) (by intro c h; cases h)

/-! ### The pins of a plan -/

/-- All that the pins of a plan change: each title of the plan has one pin more and today as its last-use day (R86). -/
theorem State.pinAll_spec (plan : List PlanEntry) (s : State) (once : (plan.map PlanEntry.title).Nodup) :
    let t := plan.foldl (fun t e => t.pin e.title) s
    (∃ titles, t = { s with titles := titles }) ∧
    (∀ x w k, x ∈ plan.map PlanEntry.title → s.title x = some { withdrawing := w, body := .cart k } →
      t.title x =
        some { withdrawing := w, body := .cart { k with pins := k.pins + 1, lastUse := s.dayCount } }) ∧
    (∀ x, x ∉ plan.map PlanEntry.title → t.title x = s.title x) := by
  induction plan generalizing s with
  | nil => exact ⟨⟨_, rfl⟩, by simp, by simp⟩
  | cons e plan ih =>
    simp only [List.map_cons, List.nodup_cons] at once
    have one : ∃ titles, s.pin e.title = { s with titles := titles } := by
      unfold State.pin
      split <;> exact ⟨_, rfl⟩
    have other : ∀ x, x ≠ e.title → (s.pin e.title).title x = s.title x := by
      intro x hx
      unfold State.pin
      split
      · exact Table.find_set_other hx _ _
      · rfl
    have day : (s.pin e.title).dayCount = s.dayCount := by
      unfold State.pin
      split <;> rfl
    obtain ⟨i0, i1, i2⟩ := ih (s.pin e.title) once.2
    simp only [List.foldl_cons, List.map_cons, List.mem_cons, not_or]
    refine ⟨?_, ?_, ?_⟩
    · obtain ⟨t1, h1⟩ := one
      obtain ⟨t2, h2⟩ := i0
      exact ⟨t2, by rw [h2, h1]⟩
    · intro x w k hx hk
      rcases hx with rfl | hx
      · rw [i2 _ once.1]
        unfold State.pin
        rw [hk]
        exact Table.find_set_self _ _ _
      · have hne : x ≠ e.title := by rintro rfl; exact once.1 hx
        rw [i1 x w k hx (by rw [other x hne]; exact hk), day]
    · intro x hx
      rw [i2 x hx.2, other x hx.1]

end Sys2Proof.Machine
end

