-- ==== Sys2Proof/Laws/Load.lean ====
section
/-! SUPPORT. What the rebuilding of the copy queue gives (R110). -/

namespace Sys2Proof.Machine

/-- A loan record put in its place by plan day, after those of the same day. -/
def insertLoan (x : Nat × Loan) : List (Nat × Loan) → List (Nat × Loan)
  | [] => [x]
  | y :: rest => if x.2.planDay < y.2.planDay then x :: y :: rest else y :: insertLoan x rest

/-- The loans in the order of their jobs. -/
def loansByDay (due : Table Loan) : List (Nat × Loan) := due.foldl (fun q e => insertLoan e q) []

/-- By plan day, then by tag. -/
def dayThenTag (x y : Nat × Loan) : Prop := x.2.planDay < y.2.planDay ∨ (x.2.planDay = y.2.planDay ∧ x.1 < y.1)

theorem insertLoan_map (x : Nat × Loan) (q : List (Nat × Loan)) :
    (insertLoan x q).map (fun e => (e.2.planDay, e.1)) =
      insertJob (x.2.planDay, x.1) (q.map (fun e => (e.2.planDay, e.1))) := by
  induction q with
  | nil => rfl
  | cons y q ih =>
    simp only [insertLoan, List.map_cons, insertJob]
    split
    · rfl
    · simp [ih]

theorem insertLoan_perm (x : Nat × Loan) (q : List (Nat × Loan)) : (insertLoan x q).Perm (x :: q) := by
  induction q with
  | nil => exact .refl _
  | cons y q ih =>
    simp only [insertLoan]
    split
    · exact .refl _
    · exact (ih.cons y).trans (.swap x y q)

theorem insertLoan_pairwise {x : Nat × Loan} {q : List (Nat × Loan)} (hq : q.Pairwise dayThenTag)
    (hx : ∀ y ∈ q, y.1 < x.1) : (insertLoan x q).Pairwise dayThenTag := by
  induction q with
  | nil => simp [insertLoan]
  | cons y q ih =>
    rw [List.pairwise_cons] at hq
    simp only [insertLoan]
    split
    · rename_i h
      refine List.pairwise_cons.mpr ⟨fun z hz => ?_, List.pairwise_cons.mpr hq⟩
      rcases List.mem_cons.mp hz with rfl | hz
      · exact .inl h
      · rcases hq.1 z hz with h2 | h2
        · exact .inl (by omega)
        · exact .inl (by omega)
    · rename_i h
      refine List.pairwise_cons.mpr ⟨fun z hz => ?_, ih hq.2 (fun z hz => hx z (List.mem_cons_of_mem _ hz))⟩
      rcases List.mem_cons.mp ((insertLoan_perm x q).mem_iff.mp hz) with rfl | hz
      · have := hx y (List.mem_cons_self ..)
        unfold dayThenTag
        omega
      · exact hq.1 z hz

theorem loansByDay_aux (due q : List (Nat × Loan)) (hd : (due.map (fun e => e.1)).Pairwise (· < ·))
    (hq : q.Pairwise dayThenTag) (hb : ∀ e ∈ due, ∀ y ∈ q, y.1 < e.1) :
    (due.foldl (fun q e => insertLoan e q) q).Perm (q ++ due) ∧
      (due.foldl (fun q e => insertLoan e q) q).Pairwise dayThenTag := by
  induction due generalizing q with
  | nil => exact ⟨by simp, hq⟩
  | cons e due ih =>
    simp only [List.map_cons, List.pairwise_cons, List.mem_map, forall_exists_index, and_imp] at hd
    have key := ih (insertLoan e q) hd.2 (insertLoan_pairwise hq (hb e (List.mem_cons_self ..))) (by
      intro x hx y hy
      rcases List.mem_cons.mp ((insertLoan_perm e q).mem_iff.mp hy) with rfl | hy
      · exact hd.1 _ x hx rfl
      · exact hb x (List.mem_cons_of_mem _ hx) y hy)
    refine ⟨key.1.trans ?_, key.2⟩
    exact ((insertLoan_perm e q).append_right due).trans List.perm_middle.symm

/-- The rebuilt queue holds one job without a bay for each PLANNED or COPYING cartridge loan, by plan day and then tag
(R110). -/
theorem rebuildQueue_spec {loans : Table Loan} (h : Table.sorted loans = true) :
    ∃ jobs : List (Nat × Loan),
      jobs.Perm (loans.filter (fun e => e.2.medium == .cartridge && e.2.pinning)) ∧ jobs.Pairwise dayThenTag ∧
      rebuildQueue loans = jobs.map (fun e => Job.mk e.1 none 0 none none) := by
  have sub : ((loans.filter (fun e => e.2.medium == .cartridge && e.2.pinning)).map (fun e => e.1)).Pairwise (· < ·) :=
    (Table.sorted_keys h).sublist (List.filter_sublist.map _)
  have key := loansByDay_aux _ [] sub List.Pairwise.nil (by simp)
  refine ⟨_, by simpa using key.1, key.2, ?_⟩
  unfold rebuildQueue
  simp only
  generalize loans.filter (fun e => e.2.medium == .cartridge && e.2.pinning) = due
  have gen : ∀ (due q : List (Nat × Loan)),
      due.foldl (fun q e => insertJob (e.2.planDay, e.1) q) (q.map (fun e => (e.2.planDay, e.1))) =
        (due.foldl (fun q e => insertLoan e q) q).map (fun e => (e.2.planDay, e.1)) := by
    intro due
    induction due with
    | nil => intro q; rfl
    | cons e due ih => intro q; rw [List.foldl_cons, ← insertLoan_map, ih]; rfl
  rw [show ([] : List (Nat × Nat)) = ([] : List (Nat × Loan)).map (fun e => (e.2.planDay, e.1)) from rfl, gen,
    List.map_map]
  rfl

end Sys2Proof.Machine
end

