-- ==== Sys2Proof/Laws/PerInstr.lean ====
section
/-! SUPPORT. Statements for every command, one lemma for each constructor of Instr. `Requests`: the request that a command
is taken as, put together again from its code, frame and hand-over, is the command. -/

namespace Sys2Proof.Laws

/-- A command that is a request is the command of its code and frame (section 11.1). -/
def Requests.Statement (i : Instr) : Prop :=
  ∀ (code : ReqCode) (f : Frame) (atOnce : Bool), requestOf i = some (code, f, atOnce) → requestCommand f atOnce code = i

theorem Requests.partReset : Requests.Statement .partReset := by
  intro _ _ _ h
  cases h; try rfl

theorem Requests.formatMarkRead (answered : Bool) : Requests.Statement (.formatMarkRead answered) := by
  intro _ _ _ h
  cases h; try rfl

theorem Requests.recordLoadComplete (ok : Bool) : Requests.Statement (.recordLoadComplete ok) := by
  intro _ _ _ h
  cases h; try rfl

theorem Requests.recordsReady : Requests.Statement .recordsReady := by
  intro _ _ _ h
  cases h; try rfl

theorem Requests.unitWriteComplete (equal : Bool) (pick : Nat) : Requests.Statement (.unitWriteComplete equal pick) := by
  intro _ _ _ h
  cases h; try rfl

theorem Requests.unitWriteAckTimeout : Requests.Statement .unitWriteAckTimeout := by
  intro _ _ _ h
  cases h; try rfl

theorem Requests.overdueScanVisit : Requests.Statement .overdueScanVisit := by
  intro _ _ _ h
  cases h; try rfl

theorem Requests.exchangeVoid (p : Port) : Requests.Statement (.exchangeVoid p) := by
  intro _ _ _ h
  cases h; try rfl

theorem Requests.replyEnd (p : Port) : Requests.Statement (.replyEnd p) := by
  intro _ _ _ h
  cases h; try rfl

theorem Requests.malformedHeader (p : Port) (header : List Byte) : Requests.Statement (.malformedHeader p header) := by
  intro _ _ _ h
  cases h; try rfl

theorem Requests.unknownRequestCode (f : Frame) (code : Byte) : Requests.Statement (.unknownRequestCode f code) := by
  intro _ _ _ h
  cases h; try rfl

theorem Requests.takeNotice (f : Frame) : Requests.Statement (.takeNotice f) := by
  intro _ _ _ h
  cases h; try rfl

theorem Requests.portStatus (f : Frame) : Requests.Statement (.portStatus f) := by
  intro _ _ _ h
  cases h; try rfl

theorem Requests.portReset (f : Frame) : Requests.Statement (.portReset f) := by
  intro _ _ _ h
  cases h; try rfl

theorem Requests.portResetLine (p : Port) : Requests.Statement (.portResetLine p) := by
  intro _ _ _ h
  cases h; try rfl

theorem Requests.postedApplicationStart (p : Port) : Requests.Statement (.postedApplicationStart p) := by
  intro _ _ _ h
  cases h; try rfl

theorem Requests.defineTitle (f : Frame) (atOnce : Bool) : Requests.Statement (.defineTitle f atOnce) := by
  intro _ _ _ h
  cases h; try rfl

theorem Requests.stageBegin (f : Frame) (atOnce : Bool) : Requests.Statement (.stageBegin f atOnce) := by
  intro _ _ _ h
  cases h; try rfl

theorem Requests.stageBlock (f : Frame) (atOnce : Bool) : Requests.Statement (.stageBlock f atOnce) := by
  intro _ _ _ h
  cases h; try rfl

theorem Requests.storeTransferComplete : Requests.Statement .storeTransferComplete := by
  intro _ _ _ h
  cases h; try rfl

theorem Requests.stagingWriteComplete : Requests.Statement .stagingWriteComplete := by
  intro _ _ _ h
  cases h; try rfl

theorem Requests.stagingIdleExpiry (title : Nat) : Requests.Statement (.stagingIdleExpiry title) := by
  intro _ _ _ h
  cases h; try rfl

theorem Requests.retireTitle (f : Frame) (atOnce : Bool) : Requests.Statement (.retireTitle f atOnce) := by
  intro _ _ _ h
  cases h; try rfl

theorem Requests.withdrawalWalkStep : Requests.Statement .withdrawalWalkStep := by
  intro _ _ _ h
  cases h; try rfl

theorem Requests.addCopies (f : Frame) (atOnce : Bool) : Requests.Statement (.addCopies f atOnce) := by
  intro _ _ _ h
  cases h; try rfl

theorem Requests.removeCopy (f : Frame) (atOnce : Bool) : Requests.Statement (.removeCopy f atOnce) := by
  intro _ _ _ h
  cases h; try rfl

theorem Requests.enrolPatron (f : Frame) (atOnce : Bool) : Requests.Statement (.enrolPatron f atOnce) := by
  intro _ _ _ h
  cases h; try rfl

theorem Requests.amendPatron (f : Frame) (atOnce : Bool) : Requests.Statement (.amendPatron f atOnce) := by
  intro _ _ _ h
  cases h; try rfl

theorem Requests.removePatron (f : Frame) (atOnce : Bool) : Requests.Statement (.removePatron f atOnce) := by
  intro _ _ _ h
  cases h; try rfl

theorem Requests.addWant (f : Frame) (atOnce : Bool) : Requests.Statement (.addWant f atOnce) := by
  intro _ _ _ h
  cases h; try rfl

theorem Requests.dropWant (f : Frame) (atOnce : Bool) : Requests.Statement (.dropWant f atOnce) := by
  intro _ _ _ h
  cases h; try rfl

theorem Requests.restoration (pick : Nat) : Requests.Statement (.restoration pick) := by
  intro _ _ _ h
  cases h; try rfl

theorem Requests.loansOutDecrease (pick : Nat) : Requests.Statement (.loansOutDecrease pick) := by
  intro _ _ _ h
  cases h; try rfl

theorem Requests.cancelLoan (f : Frame) (atOnce : Bool) : Requests.Statement (.cancelLoan f atOnce) := by
  intro _ _ _ h
  cases h; try rfl

theorem Requests.declareLost (f : Frame) (atOnce : Bool) : Requests.Statement (.declareLost f atOnce) := by
  intro _ _ _ h
  cases h; try rfl

theorem Requests.advanceDay (f : Frame) (atOnce : Bool) : Requests.Statement (.advanceDay f atOnce) := by
  intro _ _ _ h
  cases h; try rfl

theorem Requests.selectNow (f : Frame) (atOnce : Bool) : Requests.Statement (.selectNow f atOnce) := by
  intro _ _ _ h
  cases h; try rfl

theorem Requests.selectionVisit : Requests.Statement .selectionVisit := by
  intro _ _ _ h
  cases h; try rfl

theorem Requests.formatRecords (f : Frame) (atOnce : Bool) : Requests.Statement (.formatRecords f atOnce) := by
  intro _ _ _ h
  cases h; try rfl

theorem Requests.picked (f : Frame) (atOnce : Bool) : Requests.Statement (.picked f atOnce) := by
  intro _ _ _ h
  cases h; try rfl

theorem Requests.pickFailed (f : Frame) (atOnce : Bool) : Requests.Statement (.pickFailed f atOnce) := by
  intro _ _ _ h
  cases h; try rfl

theorem Requests.shelve (f : Frame) (atOnce : Bool) : Requests.Statement (.shelve f atOnce) := by
  intro _ _ _ h
  cases h; try rfl

theorem Requests.withdrawCopy (f : Frame) (atOnce : Bool) : Requests.Statement (.withdrawCopy f atOnce) := by
  intro _ _ _ h
  cases h; try rfl

theorem Requests.ejectBay (f : Frame) (atOnce : Bool) : Requests.Statement (.ejectBay f atOnce) := by
  intro _ _ _ h
  cases h; try rfl

theorem Requests.latchEjectPulseEnd (b : BayNo) : Requests.Statement (.latchEjectPulseEnd b) := by
  intro _ _ _ h
  cases h; try rfl

theorem Requests.containItem (f : Frame) (atOnce : Bool) : Requests.Statement (.containItem f atOnce) := by
  intro _ _ _ h
  cases h; try rfl

theorem Requests.pingStation (f : Frame) (atOnce : Bool) : Requests.Statement (.pingStation f atOnce) := by
  intro _ _ _ h
  cases h; try rfl

theorem Requests.bagReplaced (f : Frame) (atOnce : Bool) : Requests.Statement (.bagReplaced f atOnce) := by
  intro _ _ _ h
  cases h; try rfl

theorem Requests.routeOff (f : Frame) (atOnce : Bool) : Requests.Statement (.routeOff f atOnce) := by
  intro _ _ _ h
  cases h; try rfl

theorem Requests.routeOn (f : Frame) (atOnce : Bool) : Requests.Statement (.routeOn f atOnce) := by
  intro _ _ _ h
  cases h; try rfl

theorem Requests.rejectContainer (f : Frame) (atOnce : Bool) : Requests.Statement (.rejectContainer f atOnce) := by
  intro _ _ _ h
  cases h; try rfl

theorem Requests.setParameter (f : Frame) (atOnce : Bool) : Requests.Statement (.setParameter f atOnce) := by
  intro _ _ _ h
  cases h; try rfl

theorem Requests.titleQuery (f : Frame) : Requests.Statement (.titleQuery f) := by
  intro _ _ _ h
  cases h; try rfl

theorem Requests.patronQuery (f : Frame) : Requests.Statement (.patronQuery f) := by
  intro _ _ _ h
  cases h; try rfl

theorem Requests.loanQuery (f : Frame) : Requests.Statement (.loanQuery f) := by
  intro _ _ _ h
  cases h; try rfl

theorem Requests.channelQuery (f : Frame) : Requests.Statement (.channelQuery f) := by
  intro _ _ _ h
  cases h; try rfl

theorem Requests.stationQuery (f : Frame) : Requests.Statement (.stationQuery f) := by
  intro _ _ _ h
  cases h; try rfl

theorem Requests.binQuery (f : Frame) : Requests.Statement (.binQuery f) := by
  intro _ _ _ h
  cases h; try rfl

theorem Requests.parameterQuery (f : Frame) : Requests.Statement (.parameterQuery f) := by
  intro _ _ _ h
  cases h; try rfl

theorem Requests.delayedEntryStart (p : Port) : Requests.Statement (.delayedEntryStart p) := by
  intro _ _ _ h
  cases h; try rfl

theorem Requests.delayedResultComplete (p : Port) (code : ReqCode) (key : Nat) : Requests.Statement (.delayedResultComplete p code key) := by
  intro _ _ _ h
  cases h; try rfl

theorem Requests.discardTimerExpiry (p : Port) (code : ReqCode) (key : Nat) : Requests.Statement (.discardTimerExpiry p code key) := by
  intro _ _ _ h
  cases h; try rfl

theorem Requests.bayPresenceOn (b : BayNo) : Requests.Statement (.bayPresenceOn b) := by
  intro _ _ _ h
  cases h; try rfl

theorem Requests.bayPresenceOff (b : BayNo) : Requests.Statement (.bayPresenceOff b) := by
  intro _ _ _ h
  cases h; try rfl

theorem Requests.identityRecordReceived (b : BayNo) (record : List Byte) : Requests.Statement (.identityRecordReceived b record) := by
  intro _ _ _ h
  cases h; try rfl

theorem Requests.identifyStallExpiry (b : BayNo) : Requests.Statement (.identifyStallExpiry b) := by
  intro _ _ _ h
  cases h; try rfl

theorem Requests.eraseReadyRise (b : BayNo) : Requests.Statement (.eraseReadyRise b) := by
  intro _ _ _ h
  cases h; try rfl

theorem Requests.eraseTimeLimitExpiry (b : BayNo) : Requests.Statement (.eraseTimeLimitExpiry b) := by
  intro _ _ _ h
  cases h; try rfl

theorem Requests.eraseRereadReceived (b : BayNo) (record : List Byte) : Requests.Statement (.eraseRereadReceived b record) := by
  intro _ _ _ h
  cases h; try rfl

theorem Requests.eraseRereadStallExpiry (b : BayNo) : Requests.Statement (.eraseRereadStallExpiry b) := by
  intro _ _ _ h
  cases h; try rfl

theorem Requests.rehomeTimerExpiry (tag : Nat) : Requests.Statement (.rehomeTimerExpiry tag) := by
  intro _ _ _ h
  cases h; try rfl

theorem Requests.lampChainSendEnd : Requests.Statement .lampChainSendEnd := by
  intro _ _ _ h
  cases h; try rfl

theorem Requests.headerWriteEnd (c : Chan) : Requests.Statement (.headerWriteEnd c) := by
  intro _ _ _ h
  cases h; try rfl

theorem Requests.channelStoreReadComplete (c : Chan) (damaged : Option (List Byte)) : Requests.Statement (.channelStoreReadComplete c damaged) := by
  intro _ _ _ h
  cases h; try rfl

theorem Requests.imageBlockWriteEnd (c : Chan) : Requests.Statement (.imageBlockWriteEnd c) := by
  intro _ _ _ h
  cases h; try rfl

theorem Requests.indexBlockWriteEnd (c : Chan) : Requests.Statement (.indexBlockWriteEnd c) := by
  intro _ _ _ h
  cases h; try rfl

theorem Requests.verifyBlockReadEnd (c : Chan) (block : List Byte) : Requests.Statement (.verifyBlockReadEnd c block) := by
  intro _ _ _ h
  cases h; try rfl

theorem Requests.writeTagEnd (c : Chan) : Requests.Statement (.writeTagEnd c) := by
  intro _ _ _ h
  cases h; try rfl

theorem Requests.drainConfirmation (c : Chan) : Requests.Statement (.drainConfirmation c) := by
  intro _ _ _ h
  cases h; try rfl

theorem Requests.cartridgeStallExpiry (c : Chan) : Requests.Statement (.cartridgeStallExpiry c) := by
  intro _ _ _ h
  cases h; try rfl

theorem Requests.retryEraseEnd (c : Chan) : Requests.Statement (.retryEraseEnd c) := by
  intro _ _ _ h
  cases h; try rfl

theorem Requests.retryEraseLimitExpiry (c : Chan) : Requests.Statement (.retryEraseLimitExpiry c) := by
  intro _ _ _ h
  cases h; try rfl

theorem Requests.labelAnswer (chars : List LineChar) : Requests.Statement (.labelAnswer chars) := by
  intro _ _ _ h
  cases h; try rfl

theorem Requests.gateAnswer (chars : List LineChar) : Requests.Statement (.gateAnswer chars) := by
  intro _ _ _ h
  cases h; try rfl

theorem Requests.pingAnswer (chars : List LineChar) : Requests.Statement (.pingAnswer chars) := by
  intro _ _ _ h
  cases h; try rfl

theorem Requests.answerTimeExpiry : Requests.Statement .answerTimeExpiry := by
  intro _ _ _ h
  cases h; try rfl

theorem Requests.lineAnswerDiscarded (chars : List LineChar) : Requests.Statement (.lineAnswerDiscarded chars) := by
  intro _ _ _ h
  cases h; try rfl

theorem Requests.broadcastQuietEnd : Requests.Statement .broadcastQuietEnd := by
  intro _ _ _ h
  cases h; try rfl

theorem Requests.closeTimerExpiry (r : RouteNo) : Requests.Statement (.closeTimerExpiry r) := by
  intro _ _ _ h
  cases h; try rfl

theorem Requests.returnsPresenceRise : Requests.Statement .returnsPresenceRise := by
  intro _ _ _ h
  cases h; try rfl

theorem Requests.returnsPresenceFall : Requests.Statement .returnsPresenceFall := by
  intro _ _ _ h
  cases h; try rfl

theorem Requests.readTagAnswer (answer : List Byte) : Requests.Statement (.readTagAnswer answer) := by
  intro _ _ _ h
  cases h; try rfl

theorem Requests.tagReadTimerExpiry : Requests.Statement .tagReadTimerExpiry := by
  intro _ _ _ h
  cases h; try rfl

theorem Requests.dwellTimerExpiry : Requests.Statement .dwellTimerExpiry := by
  intro _ _ _ h
  cases h; try rfl

theorem Requests.dropoutTimerExpiry : Requests.Statement .dropoutTimerExpiry := by
  intro _ _ _ h
  cases h; try rfl

theorem Requests.clearTimerExpiry : Requests.Statement .clearTimerExpiry := by
  intro _ _ _ h
  cases h; try rfl

theorem Requests.departureTimerExpiry : Requests.Statement .departureTimerExpiry := by
  intro _ _ _ h
  cases h; try rfl

theorem Requests.exchangeEnd (p : Port) : Requests.Statement (.exchangeEnd p) := by
  intro _ _ _ h
  cases h; try rfl

theorem Requests.portResetLineRelease (p : Port) : Requests.Statement (.portResetLineRelease p) := by
  intro _ _ _ h
  cases h; try rfl

theorem Requests.lineCommandEnd : Requests.Statement .lineCommandEnd := by
  intro _ _ _ h
  cases h; try rfl

theorem Requests.cartridgeReadyRise (b : BayNo) : Requests.Statement (.cartridgeReadyRise b) := by
  intro _ _ _ h
  cases h; try rfl

end Sys2Proof.Laws
end

