-- ==== Sys2Proof/Tests/Slice0.lean ====
section
/-! SUPPORT. Tests: the refusals of `Instr.wellFormed`, the spec's worked examples, and for each statement about a next
state a state and operands that meet its hypotheses. -/

namespace Sys2Proof.Tests

open Sys2Proof Sys2Proof.Machine

/-! ### Small states and operands -/

/-- A READY part with nothing in it. -/
def base : State :=
  { State.reset with mode := .ready, startup := .settled, now := 100, lamp := { sending := none, again := false } }

def cpFrame (key : BitVec 24) (payload : List Byte) : Frame := { port := .cp, key := key, payload := payload }
def fpFrame (key : BitVec 24) (payload : List Byte) : Frame := { port := .fp, key := key, payload := payload }

/-- A cartridge title of 64 blocks in extent 2. -/
def cart (st : TitleState) (pins : Nat) : CartTitle :=
  { kind := .audio, length := 64, declared := { s1 := 1, s2 := 2 }, state := st, run1 := some { first := 2, count := 1 },
    run2 := none, received := 0, stagingSum := .zero, pins := pins, lastUse := 3, idleTimer := none }

def cartTitle (st : TitleState) (pins : Nat) : Title := { withdrawing := false, body := .cart (cart st pins) }

def vol (owned onShelf : Nat) : VolTitle := { owned := owned, onShelf := onShelf, location := 9, volumes := 2 }

def volTitle (owned onShelf : Nat) : Title := { withdrawing := false, body := .vol (vol owned onShelf) }

def reader (loansOut returnsOpen : Nat) (wants : List Nat) : Patron :=
  { number := 11, allowance := 3, loansOut := loansOut, returnsOpen := returnsOpen, route := 6, hold := false,
    wants := wants }

def loan (m : LoanMedium) (st : LoanState) (bay : Option BayNo) : Loan :=
  { patron := 11, medium := m, state := st, titles := [{ title := 5, offset := 16, length := 64 }], planTotal := 88,
    bay := bay, serial := some 77, period := 28, planDay := 1, shipDay := none, dueDay := none, route := none }

def withTitle (t : Title) : State := { base with titles := [(5, t)] }
def withReader (p : Patron) : State := { base with patrons := [(3, p)] }
def withLoan (l : Loan) : State := { base with loans := [(70, l)], patrons := [(3, reader 1 1 [5])] }

/-- A bay with a cartridge of 65,536 blocks and serial 77. -/
def bay (st : BayState) (tag : Option Nat) (command : Option (BayCommand × Nat)) : Bay :=
  { Bay.vacant with
    state := st, tag := tag, command := command, presence := true, clamped := 65536, usable := 64496
    identity := some { serial := 77, capacity := 65536, wear := 7, content := .blank, tagArea := 0 } }

def withBay (st : BayState) (tag : Option Nat) (command : Option (BayCommand × Nat)) : State :=
  base.setBay 4 (bay st tag command)

/-- An identity record. -/
def identity (capacity wear content tag : Nat) : List Byte :=
  bytesOfNat 4 77 ++ bytesOfNat 4 capacity ++ bytesOfNat 2 wear ++ bytesOfNat 1 content ++ bytesOfNat 3 tag

/-! ### Ill-formed commands -/

theorem test_wf_header : (Instr.malformedHeader .cp [0x21]).wellFormed = false := by decide
theorem test_wf_header_good : (Instr.malformedHeader .cp [0x21, 0, 0, 0, 0, 7, 0xD7]).wellFormed = false := by decide
theorem test_wf_code : (Instr.unknownRequestCode (cpFrame 1 []) (BitVec.ofNat 8 (codeNumber .titleQuery))).wellFormed = false := by
  decide
theorem test_wf_payload : (Instr.takeNotice (cpFrame 0 (List.replicate 4099 0))).wellFormed = false := by
  show decide ((List.replicate 4099 (0 : Byte)).length ≤ 4098) = false
  rw [List.length_replicate]
  rfl
theorem test_wf_title : (Instr.stagingIdleExpiry 0).wellFormed = false := by decide
theorem test_wf_entry : (Instr.delayedResultComplete .cp .loanQuery 0).wellFormed = false := by decide
theorem test_wf_entry_code : (Instr.discardTimerExpiry .cp .selectNow 1).wellFormed = false := by decide
theorem test_wf_tag : (Instr.rehomeTimerExpiry 1048576).wellFormed = false := by decide
theorem test_wf_block : (Instr.verifyBlockReadEnd .a [0]).wellFormed = false := by decide
theorem test_wf_damaged : (Instr.channelStoreReadComplete .b (some [])).wellFormed = false := by decide
theorem test_wf_answer : (Instr.labelAnswer [addressChar 1, dataChar 0x07]).wellFormed = false := by decide

/-! ### The spec's worked examples -/

/-- The sum of three words (section 6.4): 50,921,733. -/
theorem test_image_sum : (ImageSum.zero.addBytes [0x02, 0x01, 0xFF, 0xFF, 0x03, 0x00]).number = 50921733 := by decide

/-- Footprints of lengths 1, 7, 8, 4,015 and 65,535 (section 4.4). -/
theorem test_footprints : [1, 7, 8, 4015, 65535].map footprint = [8, 8, 16, 4016, 65536] := by decide

/-- Usable capacities of five reported capacities (section 4.4). -/
theorem test_usable :
    [4095, 4096, 66591, 66592, 5000000].map (fun c => usableCapacity (clampedCapacity c)) =
      [0, 4016, 65535, 65536, 4128752] := by decide

/-- The store of the allocation example (section 1.3). -/
def crowded : State :=
  let resident (length lastUse first count pins : Nat) : Title :=
    { withdrawing := false
      body := .cart
        { cart .resident pins with length := length, lastUse := lastUse, run1 := some { first := first, count := count } } }
  { base with
    freeMap := [{ first := 100, count := 4 }, { first := 200, count := 8 }, { first := 500, count := 3 },
      { first := 900, count := 6 }]
    titles := [(2050, resident 2500 1090 300 40 3), (4100, resident 500 1150 503 8 0), (7300, resident 700 1150 906 12 0)] }

/-- Allocation with eviction (section 1.3): 4,100 and then 7,300 are evicted, and the runs are 900..917 and 100..101. -/
theorem test_allocation :
    let r := allocateEvicting 4 (extentsFor 1250) crowded
    r.2 = .found { first := 900, count := 18 } (some { first := 100, count := 2 }) ∧
    r.1.cp.notices = [note .titleEvicted 4100 [1150, 8], note .titleEvicted 7300 [1150, 12]] := by decide

/-- Block 1,249 of that title is store block 6,497. -/
theorem test_store_block :
    ({ cart .staging 0 with
      length := 1250, run1 := some { first := 900, count := 18 }
      run2 := some { first := 100, count := 2 } } : CartTitle).storeBlock 1249 = 6497 := by decide

/-- The three-title fill (section 4.4), its want list cut after W10: bay 7 and three titles with their offsets. -/
theorem test_fill :
    let held (n length : Nat) (st : TitleState) : Nat × Title :=
      (n, { withdrawing := false, body := .cart { cart st 0 with length := length } })
    let pool (u : Nat) : Bay := { bay .blank none none with usable := u }
    let s := ((((({ base with
      titles := [held 1 52000 .resident, held 2 9 .staging, held 3 65535 .resident, held 4 30000 .resident,
        (5, volTitle 0 0), held 6 11455 .resident, held 7 4100 .resident, held 8 9 .absent, (9, volTitle 2 2),
        held 10 9 .resident] }).setBay 3 (pool 32240)).setBay 7 (pool 129008)).setBay 11 (pool 258032)).setBay 14
          (pool 129008))
    s.chooseShipment [1, 2, 3, 4, 5, 6, 7, 8, 9, 10, 11] = some (.cartridge 7
      [{ title := 1, offset := 16, length := 52000 }, { title := 3, offset := 52024, length := 65535 },
        { title := 6, offset := 117560, length := 11455 }]) ∧ s.loanPeriod 3 = 56 := by decide +kernel

/-- R91: bay 15's pair first, bay 0's last. Bay 0 REJECTED, bay 15 BLANK. -/
theorem test_lamp : lampWord ((base.setBay 0 (bay .rejected none none)).setBay 15 (bay .blank none none)).bays =
    0x80000003#32 := by decide

/-- The tag card of loan 70,020 and reader 1,305,224, byte by byte (section 11.4), read back. -/
theorem test_tag_card :
    tagCard 70020 1305224 = [0x01, 0x11, 0x84, 0x13, 0xEA, 0x88, 0x1B, 0xE4] ∧
    parseTagAnswer (0x01 :: tagCard 70020 1305224) = .card 70020 1305224 := by decide

/-- A PATRON QUERY of reader 612,774 written out byte by byte (section 11.1). -/
theorem test_frame :
    decodeFrame .cp false [0x51, 0x00, 0x00, 0x09, 0x59, 0xA6, 0xA6] = some (.patronQuery (cpFrame 612774 [])) := by decide

/-- The label of loan 71,004 (section 7.6): 1,320 + 42 gives due day 1,362 at the release (R51). -/
theorem test_due_day : ({ loan .cartridge .bagged none with period := 42 }.mail 1320).dueDay = some 1362 := by decide

/-! ### Witnesses: titles and patrons -/

theorem witness_free (p : Port) : base.free p := ⟨rfl, by cases p <;> rfl, by cases p <;> rfl, by cases p <;> rfl,
  fun _ => rfl, by decide⟩

theorem witness_define_title :
    base.free .cp ∧ Spells (cpFrame 7 [2, 40, 0, 0, 0, 0, 0, 9]) (.defineTitle 7 (.vol 9 40)) ∧
    Spells (cpFrame 7 [1, 2, 0, 1, 0xFF, 0xFE, 0, 0]) (.defineTitle 7 (.cart .brailleFile 1 { s1 := 0, s2 := 65534 })) ∧
    natOfBytes (slice 0 1 [1, 2, 0, 0, 0, 0, 0, 0]) = 1 ∧ parsePosted .defineTitle 7 [1, 2, 0, 0, 0, 0, 0, 0] = none ∧
    parsePosted .defineTitle 7 [2, 41, 0, 0, 0, 0, 0, 9] = none := by
  unfold State.free Spells; decide

theorem witness_stage_begin :
    Spells (cpFrame 5 []) (.stageBegin 5) ∧ (withTitle (cartTitle .absent 0)).free .cp ∧
    (withTitle (cartTitle .absent 0)).title 5 = some (cartTitle .absent 0) ∧
    base.freeMap.find? (fun x => decide ((64 + 63) / 64 ≤ x.count)) = some { first := 0, count := 65536 } ∧
    base.title 5 = none ∧ (withTitle (volTitle 1 1)).title 5 = some { withdrawing := false, body := .vol (vol 1 1) } ∧
    (withTitle (cartTitle .damaged 1)).title 5 = some (cartTitle .damaged 1) := by
  unfold State.free Spells; decide

/-- STAGE BLOCK on a free and on a busy path, and for a title it is refused for. -/
theorem witness_stage_block :
    Spells (cpFrame 5 ([0, 0] ++ List.replicate 4096 7)) (.stageBlock 5 0 (List.replicate 4096 7)) ∧
    Spells (cpFrame 5 ([0, 1] ++ List.replicate 4096 7)) (.stageBlock 5 1 (List.replicate 4096 7)) ∧
    (withTitle (cartTitle .staging 0)).free .cp ∧ (withTitle (cartTitle .staging 0)).grant = none ∧
    (withTitle (cartTitle .staging 0)).searchFrom = .staging ∧
    ({ withTitle (cartTitle .staging 0) with grant := some .chanB } : State).free .cp ∧
    ({ withTitle (cartTitle .staging 0) with searchFrom := .chanB } : State).chanB.activity ≠ .storeRequest ∧
    base.title 5 = none ∧ (withTitle (volTitle 1 1)).title 5 = some (volTitle 1 1) ∧ (cart .resident 0).state ≠ .staging := by
  refine ⟨⟨?_, rfl⟩, ⟨?_, rfl⟩, by unfold State.free; decide, rfl, rfl, by unfold State.free; decide, by decide, rfl, rfl,
    by decide⟩ <;>
  · unfold frameCheck
    rw [if_neg]
    · rfl
    · simp only [cpFrame, List.length_append, List.length_replicate]; decide

theorem witness_retire_title :
    Spells (cpFrame 5 []) (.retireTitle 5) ∧ base.free .cp ∧ (withTitle (cartTitle .retiring 1)).free .cp ∧
    (withTitle (cartTitle .resident 0)).free .cp ∧ (cart .resident 0).state ≠ .retiring := by
  unfold State.free Spells; decide

theorem witness_copies :
    Spells (cpFrame 5 [1]) (.addCopies 5 1) ∧ Spells (cpFrame 5 []) (.removeCopy 5) ∧ (withTitle (volTitle 62 62)).free .cp ∧
    natOfBytes (slice 0 1 [0]) = 0 := by
  unfold State.free Spells; decide

theorem witness_enrolment :
    Spells (cpFrame 11 [9, 31, 1]) (.enrolPatron 11 6 31 true) ∧ Spells (cpFrame 11 [4, 6, 0]) (.amendPatron 11 4 6 false) ∧
    Spells (cpFrame 11 [3, 6, 0]) (.amendPatron 11 3 6 false) ∧ Spells (cpFrame 11 []) (.removePatron 11) ∧
    (withReader (reader 0 0 [])).free .cp ∧ (withReader (reader 0 0 [])).reader 11 = some (3, reader 0 0 []) ∧
    base.reader 11 = none ∧ (cpFrame 11 [9, 32, 1]).payload.length = 3 ∧ 31 < natOfBytes (slice 1 1 [9, 32, 1]) ∧
    1 < natOfBytes (slice 2 1 [9, 31, 2]) ∧ (base.port .cp).resetLine = false ∧
    parsePosted .enrolPatron 9999999 [255, 31, 1] = some (.enrolPatron 9999999 6 31 true) := by
  unfold State.free Spells; decide

theorem witness_wants :
    let s := { withTitle (cartTitle .absent 0) with patrons := [(3, reader 0 0 [6])] }
    Spells (cpFrame 11 [0, 0, 5, 1]) (.addWant 11 5 true) ∧ Spells (cpFrame 11 [0, 0, 5, 2]) (.addWant 11 5 false) ∧
    Spells (cpFrame 11 [0, 0, 6]) (.dropWant 11 6) ∧ s.free .cp ∧ s.reader 11 = some (3, reader 0 0 [6]) ∧
    s.wantable 5 = true ∧ s.liveLoanNaming 11 5 = none ∧ 5 ∉ (reader 0 0 [6]).wants := by
  unfold State.free Spells; decide

/-- The other rows of ADD WANT: a title not defined, a live loan that names it, a place in the list, a full list, and
malformed fields (R33). -/
theorem witness_add_want_rows :
    let t := withTitle (cartTitle .absent 0)
    let out : State := { t with
      loans := [(70, loan .cartridge .mailed none)], patrons := [(3, reader 1 0 [5])] }
    let second : State := { t with patrons := [(3, reader 0 0 [6, 5])] }
    let first : State := { t with patrons := [(3, reader 0 0 [5])] }
    let crowd : State := { t with patrons := [(3, reader 0 0 (List.replicate 24 6))] }
    t.free .cp ∧ t.reader 11 = none ∧ (withReader (reader 0 0 [])).wantable 5 = false ∧
    out.free .cp ∧ out.wantable 5 = true ∧ out.liveLoanNaming 11 5 = some 70 ∧
    second.free .cp ∧ second.reader 11 = some (3, reader 0 0 [6, 5]) ∧ second.liveLoanNaming 11 5 = none ∧
    5 ∈ (reader 0 0 [6, 5]).wants ∧ (reader 0 0 [6, 5]).wants.head? ≠ some 5 ∧
    first.free .cp ∧ (reader 0 0 [5]).wants.head? = some 5 ∧
    crowd.free .cp ∧ 24 ≤ (reader 0 0 (List.replicate 24 6)).wants.length ∧
    5 ∉ (reader 0 0 (List.replicate 24 6)).wants ∧
    parsePosted .addWant 11 [0, 0, 5, 3] = none ∧ parsePosted .addWant 10000000 [0, 0, 5, 1] = none := by
  unfold State.free; decide

/-! ### Witnesses: loans, selection, records -/

theorem witness_cancel_volume :
    let s := { withLoan (loan .volume .picked none) with titles := [(5, volTitle 1 0)] }
    Spells (cpFrame 70 []) (.cancelLoan 70) ∧ base.free .cp ∧ base.loan 70 = none ∧
    (withLoan (loan .volume .bagged none)).free .cp ∧ (withLoan (loan .volume .returning none)).free .cp ∧ s.free .cp ∧
    s.loan 70 = some (loan .volume .picked none) ∧ (loan .volume .picked none).firstTitle = 5 ∧
    s.title 5 = some (volTitle 1 0) ∧ s.noneReady := by
  unfold State.free Spells State.noneReady; decide

/-- Channel A copying loan 70 in bay 4. -/
def copying (st : ChanState) (stopping : Bool) (a : Activity) : Channel :=
  { state := st, tag := some 70, bay := some 4, titles := [{ title := 5, offset := 16, length := 64 }], index := 1,
    set1 := { first := 128, last := 191, now := 128, count := 1 }, set2 := .zero, second := false, sum := .zero,
    block := 16, attempts := 0, stopping := stopping, stopCause := none, activity := a }

def job : Job := { tag := 70, bay := some 4, attempts := 0, holder := some .a, rehome := none }

/-- The part while channel A copies loan 70. -/
def copyState (bayIs : BayState) (x : Channel) : State :=
  { (base.setBay 4 { bay bayIs (some 70) none with ready := false }) with
    titles := [(5, cartTitle .resident 1)], loans := [(70, loan .cartridge .copying (some 4))]
    patrons := [(3, reader 1 0 [])], copyQueue := [job], chanA := x }

theorem witness_cancel_cartridge :
    let s := (withLoan (loan .cartridge .written (some 4))).setBay 4 (bay .written (some 70) none)
    let t := copyState .writing (copying .image false (.commandSent (.writeBlock 17 []) 350))
    s.free .cp ∧ s.loan 70 = some (loan .cartridge .written (some 4)) ∧ s.lineHeld 4 = false ∧ s.job 70 = none ∧
    s.noneReady ∧ t.free .cp ∧ t.loan 70 = some (loan .cartridge .copying (some 4)) ∧ t.job 70 = some job ∧ t.noneReady ∧
    (t.chan .a).activity = .commandSent (.writeBlock 17 []) 350 ∧
    ∀ a ∈ [Activity.storeRequest, .storeRead false, .commandDue .drain 350, .commandDue .erase 350],
      let u := copyState .writing (copying .image false a)
      u.free .cp ∧ u.job 70 = some job ∧ (u.chan .a).bay = some 4 ∧ (u.chan .a).tag = some 70 ∧ u.noneReady ∧
      (u.chan .b).bay ≠ some 4 ∧ (u.chan .a).activity = a := by
  unfold State.free State.noneReady; decide

theorem witness_declare_lost :
    let s := { withLoan (loan .volume .overdue none) with titles := [(5, volTitle 1 0)] }
    Spells (cpFrame 70 []) (.declareLost 70) ∧ s.free .cp ∧ (withLoan (loan .cartridge .mailed none)).free .cp ∧
    (withLoan (loan .cartridge .planned none)).free .cp ∧ s.title 5 = some (volTitle 1 0) := by
  unfold State.free Spells; decide

theorem witness_volume_requests :
    let s := { withLoan (loan .volume .planned none) with titles := [(5, volTitle 1 0)] }
    let t := { withLoan (loan .volume .returning none) with titles := [(5, volTitle 1 0)] }
    Spells (fpFrame 70 []) (.picked 70) ∧ Spells (fpFrame 70 []) (.pickFailed 70) ∧ Spells (fpFrame 70 []) (.shelve 70) ∧
    Spells (fpFrame 70 []) (.withdrawCopy 70) ∧ s.free .fp ∧ t.free .fp ∧ base.free .fp ∧
    s.loan 70 = some (loan .volume .planned none) ∧ t.loan 70 = some (loan .volume .returning none) ∧
    (withLoan (loan .cartridge .planned none)).free .fp := by
  unfold State.free Spells; decide

theorem witness_day_and_scan :
    let late := { loan .cartridge .mailed none with dueDay := some 8 }
    let s := { base with
      dayCount := 9, scan := some { cursor := 0, waiting := false }
      loans := [(70, late), (71, loan .cartridge .planned none)] }
    let last := { s with loans := [(70, loan .cartridge .planned none)] }
    Spells (cpFrame 0 []) .advanceDay ∧ base.free .cp ∧ Table.above 0 s.loans = some (70, late) ∧
    s.cp.notices.length < 64 ∧ s.writeQueue.length < 128 ∧ Table.above 70 s.loans ≠ none ∧
    Table.above 0 last.loans = some (70, loan .cartridge .planned none) ∧ Table.above 70 last.loans = none ∧
    last.cp.applying = false ∧ last.cp.posted = [] ∧
    ({ last.cp with posted := [.selectNow] } : PortUnit).posted ≠ [] ∧
    ({ last.cp with posted := [.advanceDay], applying := true } : PortUnit).posted.head? = some .advanceDay ∧
    Table.above 71 s.loans = none ∧ Table.above 0 [(70, late)] = some (70, late) ∧ Table.above 70 [(70, late)] = none := by
  unfold State.free Spells; decide

theorem witness_full_notices :
    let late := { loan .cartridge .mailed none with dueDay := some 8 }
    let s : State := { base with
      dayCount := 9, scan := some { cursor := 0, waiting := false }, loans := [(70, late)]
      cp := { base.cp with notices := List.replicate 64 (note .started 0 []) } }
    Table.above 0 s.loans = some (70, late) ∧ s.scan = some { cursor := 0, waiting := false } ∧
    64 ≤ s.cp.notices.length := by decide

theorem witness_waiting_scan :
    let sc : Scan := { cursor := 0, waiting := true }
    { base with scan := some sc }.scan = some sc ∧ sc.waiting = true := by decide

theorem witness_select_now :
    Spells (cpFrame 0 []) .selectNow ∧ base.free .cp ∧ (base.port .fp).resetLine = false ∧ (fpFrame 0 []).payload = [] := by
  unfold State.free Spells; decide

theorem witness_format :
    let u := { base with mode := .unformatted }
    Spells (cpFrame 0 []) .formatRecords ∧ base.free .cp ∧ base.loans = [] ∧
    (withLoan (loan .cartridge .planned none)).free .cp ∧ u.scan = none ∧ (u.port .cp).posted = [] ∧
    testMark u.mem.mark = .absent := by
  unfold State.free Spells; decide

theorem witness_set_parameter :
    let s := base.setBin 6 { state := .open, list := [70, 71], closeTimer := none }
    Spells (cpFrame 1 [0, 0, 0, 7]) (.setParameter 1 7) ∧ Spells (fpFrame 44 [0, 0, 0, 30]) (.setParameter 44 30) ∧
    Spells (fpFrame 152 [0, 0, 0, 30]) (.setParameter 152 30) ∧ Spells (fpFrame 153 [0, 0, 0, 15]) (.setParameter 153 15) ∧
    Spells (fpFrame 154 [0, 0, 0, 2]) (.setParameter 154 2) ∧ Spells (fpFrame 155 [0, 0, 0, 0]) (.setParameter 155 0) ∧
    Spells (cpFrame 1 [0, 0, 0, 28]) (.setParameter 1 28) ∧ s.free .cp ∧ s.free .fp ∧ Table.sorted s.settings = true ∧
    (paramOf 154).map (fun row => row.clamp 2) = some 2 ∧ (s.bin 6).list.length = 2 := by
  unfold State.free Spells; decide

/-! ### Witnesses: floor requests -/

theorem witness_eject :
    Spells (fpFrame 4 []) (.ejectBay 4) ∧ (withBay .blank none none).free .fp ∧ (withBay .written (some 70) none).free .fp ∧
    (withBay .rejected none none).free .fp ∧ ((withBay .reserved (some 70) none).bay 4).tag = some 70 ∧
    (withBay .identifying none none).free .fp ∧ (withBay .tagging (some 70) none).free .fp ∧ (base.bay 4).state = .empty := by
  unfold State.free Spells; decide

theorem witness_contain_and_ping :
    let s := withLoan (loan .cartridge .written (some 4))
    let line : LineSend :=
      { command := .ping, station := 3, chars := [], sent := 1, retries := none, phase := .sending }
    let other : LineJob := { kind := .ping 3, route := none, stage := .ping }
    let busy := { s with lineJobs := [other], lineCmd := some line }
    Spells (fpFrame 70 []) (.containItem 70) ∧ Spells (fpFrame 3 []) (.pingStation 3) ∧ base.free .fp ∧ s.free .fp ∧
    (withLoan (loan .cartridge .planned none)).free .fp ∧ busy.free .fp ∧ (∀ j ∈ busy.lineJobs, j.kind ≠ .contain 70) ∧
    busy.lineJobs.length < 16 ∧ 16 ≤ (List.replicate 16 other).length ∧
    s.reader 11 = some (3, reader 1 1 [5]) ∧ (s.bin 6).state = .open ∧ s.station s.labelStation ≠ .offline := by
  unfold State.free Spells; decide

theorem witness_bins :
    Spells (fpFrame 31 []) (.bagReplaced 31) ∧ Spells (fpFrame 0 []) (.routeOff 0) ∧ Spells (fpFrame 0 []) (.routeOn 0) ∧
    (base.setBin 31 { state := .closed, list := [], closeTimer := none }).free .fp ∧
    (base.setBin 0 { state := .off, list := [], closeTimer := none }).free .fp ∧ parsePosted .bagReplaced 32 [] = none := by
  unfold State.free Spells; decide

theorem witness_reject_container :
    let s := { base with recog := { Recognizer.idle true with stage := .settled, tag := some 70, patron := some 11 } }
    Spells (fpFrame 0 []) .rejectContainer ∧ s.free .fp ∧ base.free .fp ∧ base.recog.stage = .idle := by
  unfold State.free Spells; decide

/-! ### Witnesses: ports -/

theorem witness_exchange :
    headerMalformed [0x21, 0, 0, 0, 0, 7, 0xD8] = true ∧ headerMalformed [0x21, 0, 0, 0, 0, 7, 0xD7] = false ∧
    headerMalformed [0x12, 0x10, 0x03, 0, 0, 5, 0xD5] = true ∧ codeOf 0 = none ∧ codeOf 0xFF = none ∧
    (base.port .cp).resetLine = false := by decide

theorem witness_refused :
    (cpFrame 5 [0]).payload.length ≠ payloadLength .stageBegin ∧ takenOn .stageBegin 5 .fp = false ∧
    takenOn .addCopies 5 .cp = true ∧ [0].length = payloadLength .addCopies ∧ parsePosted .addCopies 5 [0] = none ∧
    queryKeyOk .loanQuery 0 = false ∧ queryKeyOk .loanQuery 1048575 = true ∧
    (parsePosted .addCopies 5 [1]).isSome = true ∧ State.reset.mode = .starting ∧
    ({ base with mode := .unformatted } : State).mode = .unformatted := by decide

theorem witness_posted_queue :
    let s (posted : List PostedReq) (applying handed : Bool) : State :=
      { base with cp := { base.cp with posted := posted, applying := applying, handed := handed } }
    let full := s (List.replicate 32 .selectNow) true false
    let scanning : State := { base with scan := some { cursor := 0, waiting := false } }
    Spells (cpFrame 0 []) .selectNow ∧ (s [.selectNow] true true).cp.posted ≠ [] ∧
    (s [.selectNow] true true).writeQueue.length < 128 ∧ 32 ≤ (full.port .cp).posted.length ∧
    (s [.selectNow] true false).cp.handed = false ∧ scanning.scan ≠ none ∧ scanning.cp.applying = false ∧
    base.cp.applying = false ∧ base.scan = none ∧
    (s [.selectNow, .advanceDay] true true).cp.posted = .selectNow :: [.advanceDay] ∧
    (s [.selectNow, .advanceDay] false false).cp.posted = .selectNow :: [.advanceDay] ∧
    (base.port .cp).posted = [] ∧ (base.port .cp).posted.length < 32 := by
  unfold Spells; decide

/-- R182: a request accepted into an empty queue and not taken by its block is emptied when the line cuts its exchange. -/
theorem test_accepted_then_reset :
    let t := State.queue .cp (.removeCopy 5) false base
    t.cp.posted = [.removeCopy 5] ∧ t.cp.applying = false ∧ t.cp.exchange = some acceptedExchange ∧
    (takePortResetLine .cp t).cp.posted = [] := by decide

/-- R172: the next head is handed over in the event that ends the application before it, so a port reset keeps it. -/
theorem test_next_handed_over :
    let u : PortUnit := { base.cp with posted := [.selectNow, .advanceDay, .selectNow], applying := true }
    (u.endApplication.posted = [.advanceDay, .selectNow] ∧ u.endApplication.applying = true ∧
      u.endApplication.handed = true) ∧ u.endApplication.reset.posted = [.advanceDay] := by decide

theorem witness_delayed :
    let d : Delayed := { code := .loanQuery, key := 1, condition := .waiting, mark := 0 }
    let full := (List.range 8).map (fun k => { d with key := k + 1, mark := 1 })
    let u : PortUnit := { base.cp with delayed := full }
    let found (code : ReqCode) (key : Nat) := u.delayed.find? (fun e => e.code == code && e.key == key)
    requestClass .loanQuery = .delayed ∧ queryKeyOk .loanQuery 1 = true ∧ found .loanQuery 1 = some { d with mark := 1 } ∧
    found .binQuery 0 = none ∧ 8 ≤ u.delayed.length ∧ base.cp.delayed.length < 8 ∧
    full = [] ++ { d with mark := 1 } :: full.tail ∧
    (∀ e ∈ [] ++ full.tail, ¬(e.code = d.code ∧ e.key = d.key)) ∧
    (∀ e ∈ [{ d with condition := .complete .notFound 300 }], e.condition ≠ .waiting) := by decide

/-- What the queries find, and do not find. -/
theorem witness_answers :
    let s := { withLoan (loan .cartridge .copying (some 4)) with titles := [(5, cartTitle .resident 1)] }
    let c : Channel := { Channel.cleared with state := .draining }
    s.title 5 = some (cartTitle .resident 1) ∧ s.title 6 = none ∧ s.reader 11 = some (3, reader 1 1 [5]) ∧
    s.reader 12 = none ∧ s.loan 70 = some (loan .cartridge .copying (some 4)) ∧ s.loan 71 = none ∧
    s.chan .b = .cleared ∧ c.state ≠ .idle ∧ (31 : RouteNo).val = 31 ∧
    paramOf 44 = some { low := 1, high := 30, default := 1, port := .fp } ∧ (paramOf 255).isSome = true := by decide

/-- R150: 9,001 ms to a bin's close are shown as 10 s. -/
theorem test_timer_left :
    (({ base with now := 1000 } : State).setBin 6 { state := .open, list := [70], closeTimer := some 10001 }).answer .binQuery
      6 = .bin
        { state := .open, list := [70], triggerLevel := 24, closeTimeout := 600, timerLeft := some 10, gateStation := 2
          gateOutput := 6, stationState := .unused } := by decide

theorem witness_replies :
    let u : PortUnit := { base.cp with
      notices := [note .started 0 []]
      exchange := some { reply := .doneNotice none false 0, handOver := .notice true, ended := false } }
    let d : Delayed := { code := .loanQuery, key := 1, condition := .complete .notFound 300, mark := 0 }
    u.exchange = some { reply := .doneNotice none false 0, handOver := .notice true, ended := false } ∧
    [d].find? (fun e => e.code == .loanQuery && e.key == 1) = some d ∧ base.scan = none ∧
    (base.port .cp).resetLine = false := by decide

/-- A TAKE NOTICE of an empty queue: kind NONE, and its reply's end clears the mark (R180). -/
theorem witness_no_notice :
    let u : PortUnit := { base.cp with
      overflow := true, exchange := some { reply := .doneNotice none true 0, handOver := .notice false, ended := false } }
    let s : State := { base with cp := u }
    (s.port .cp).exchange = some { reply := .doneNotice none true 0, handOver := .notice false, ended := false } ∧
    (s.port .cp).notices = [] ∧ (s.port .cp).overflow = true := by decide

/-- One step takes the command at the front and leaves the queue's rest. -/
theorem test_step_front :
    step { base with pending := [.exchangeEnd .cp, .selectionVisit] } = .next { base with pending := [.selectionVisit] } := by
  rfl

/-! ### Witnesses: start-up, record memory, the Patron Table and selection -/

theorem witness_startup :
    let mark (bytes : List Byte) : State := { State.reset with mem := { State.reset.mem with mark := bytes } }
    (mark formatMark).startup = .readingMark 50 ∧ testMark (mark formatMark).mem.mark = .valid ∧
    testMark State.reset.mem.mark ≠ .valid ∧ ({ State.reset with startup := .loading } : State).startup = .loading ∧
    ({ State.reset with startup := .reconciled } : State).startup = .reconciled ∧
    (∀ b, (State.reset.bay b).state = .empty) ∧ State.reset.lineJobs = [] ∧ State.reset.lineCmd = none := by decide

theorem witness_unit_written :
    let bagged := (withLoan (loan .cartridge .bagged none)).setBin 6
      { state := .open, list := [70], closeTimer := some 900 }
    let s (u : WriteUnit) (waiting : List Held) : State :=
      { bagged with writeQueue := [u], writeDeadline := some 120, waiting := waiting, startup := .formatting }
    let expiry (limit : Nat) : Held := { event := .closeTimerExpiry 6, awaited := .timer (some limit) }
    (s [.nextTag 2] []).mode ≠ .starting ∧ (s [.nextTag 2] []).writeQueue = [[.nextTag 2]] ∧ bagged.noneReady ∧
    (s [.day 2] []).writeQueue = [[.day 2]] ∧ (s [.day 2] []).loans ≠ [] ∧
    (s [.mark erasedMark] []).writeQueue ≠ [[.mark formatMark]] ∧ (s [.mark formatMark] []).startup = .formatting ∧
    (s [.nextTag 2] [expiry 900]).awaits (.closeTimerExpiry 6) = (expiry 900).awaited ∧
    (s [.nextTag 2] [expiry 800]).awaits (.closeTimerExpiry 6) ≠ (expiry 800).awaited ∧
    (bagged.bin 6).closeTimer = some 900 ∧
    (let reading : Option (BayCommand × Nat) := some (.readIdentity, 350)
     let held : Held := { event := .identityRecordReceived 4 [], awaited := .bayCommand reading }
     let r : State := { withBay .identifying none reading with writeQueue := [[.nextTag 2]], waiting := [held] }
     r.mode ≠ .starting ∧ r.writeQueue = [[.nextTag 2]] ∧ r.noneReady ∧ (r.bay 4).command = reading) := by
  unfold State.noneReady; decide

/-- A write queue that holds 128 units. -/
def fullQueue : State := { base with writeQueue := List.replicate 128 [.nextTag 2] }

theorem witness_full_queue : 128 ≤ fullQueue.writeQueue.length :=
  (List.length_replicate (n := 128) (a := ([.nextTag 2] : WriteUnit))).ge

theorem witness_staging :
    let b : StagedBlock := { title := 5, storeBlock := 128, bytes := [1], transferred := false }
    let s : State := { withTitle (cartTitle .staging 0) with grant := some .staging, stagingWriter := some b }
    let c := { cart .staging 0 with received := 64, stagingSum := { s1 := 1, s2 := 2 } }
    let t : State := { withTitle { withdrawing := false, body := .cart c } with
      stagingWriter := some { b with transferred := true } }
    s.grant = some .staging ∧ s.stagingWriter = some b ∧ s.chanA.activity ≠ .storeRequest ∧
    s.chanB.activity ≠ .storeRequest ∧ t.grant ≠ some .staging ∧
    t.title 5 = some { withdrawing := false, body := .cart c } ∧ c.received = c.length ∧ c.stagingSum = c.declared ∧
    (cart .staging 0).received ≠ (cart .staging 0).length ∧ t.writeQueue.length < 128 ∧
    ({ cart .staging 0 with idleTimer := some 300 } : CartTitle).idleTimer = some 300 := by decide

/-- Channel A's transfer ends while channel B and the staging writer ask, the search standing at B or at the writer. -/
theorem witness_next_grant :
    let b : StagedBlock := { title := 5, storeBlock := 128, bytes := [1], transferred := false }
    let s (st : TitleState) (search : Requester) : State := { withTitle (cartTitle st 0) with
      grant := some .chanA, searchFrom := search, stagingWriter := some b
      chanA := copying .image false (.storeRead false)
      chanB := { copying .image false .storeRequest with tag := some 71, bay := some 5 } }
    (s .staging .chanB).grant = some (Chan.requester .a) ∧ (s .staging .chanB).chanB.activity = .storeRequest ∧
    [(s .staging .chanB).searchFrom, .staging, .chanA] = [] ++ .chanB :: [.staging, .chanA] ∧
    (s .staging .chanA).stagingWriter = some b ∧ (s .staging .chanA).searchFrom.after = .chanB ∧
    (s .staging .staging).title b.title = some (cartTitle .staging 0) ∧
    [(s .staging .staging).searchFrom, Requester.staging.after, Requester.staging.after.after] =
      [] ++ .staging :: [.chanA, .chanB] ∧
    (s .resident .staging).title b.title = some (cartTitle .resident 0) ∧ (cart .resident 0).state ≠ .staging ∧
    [Requester.chanA, .chanB] = [.chanA] ++ .chanB :: [] := by decide

theorem witness_patron_table :
    let w : Walk := { title := 5, next := 0, changed := 0 }
    let s : State := { withTitle (cartTitle .resident 1) with
      patrons := [(3, reader 1 0 [6, 5])], walk := some w, decreases := [11]
      restorations := [{ patron := 11, titles := [5] }] }
    let past (next : Nat) (e : Nat × Patron) : Bool := decide (next ≤ e.1) && e.2.wants.contains 5
    s.patrons.find? (past 0) = some (3, reader 1 0 [6, 5]) ∧ s.patrons.find? (past 4) = none ∧
    s.title 5 = some (cartTitle .resident 1) ∧ (cart .resident 1).state ≠ .retiring ∧
    (withTitle (volTitle 2 1)).title 5 = some (volTitle 2 1) ∧
    s.restorations[0]? = some { patron := 11, titles := [5] } ∧ s.reader 11 = some (3, reader 1 0 [6, 5]) ∧
    s.decreases[0]? = some 11 ∧ s.writeQueue.length < 128 := by decide

theorem witness_visits :
    let passing : Engine := { Engine.idle with passing := true, start := 1, next := some 1 }
    let s (t : Title) (p : Patron) : State := { withTitle t with patrons := [(3, p)], engine := passing }
    let volume := s (volTitle 2 1) (reader 1 0 [5])
    let cartridge : State :=
      { (s (cartTitle .resident 0) (reader 1 0 [5])).setBay 4 (bay .blank none none) with
        chanA := copying .image false .storeRequest, chanB := copying .image false .storeRequest }
    volume.nextReader = some (3, reader 1 0 [5]) ∧ volume.noneReady ∧ volume.loans.length < 32768 ∧
    volume.chooseShipment [5] = some (.volume 5 (vol 2 1)) ∧ volume.title 5 = some (volTitle 2 1) ∧
    (s (volTitle 2 1) (reader 3 0 [5])).nextReader = some (3, reader 3 0 [5]) ∧
    cartridge.nextReader = some (3, reader 1 0 [5]) ∧ cartridge.idleChannel = none ∧
    cartridge.chooseShipment [5] = some (.cartridge 4 [{ title := 5, offset := 16, length := 64 }]) ∧
    cartridge.writeQueue.length < 128 := by
  unfold State.noneReady; decide

theorem witness_full_loans :
    let passing : Engine := { Engine.idle with passing := true, start := 1, next := some 1 }
    let s : State := { withReader (reader 0 0 [5]) with
      engine := passing, loans := List.replicate 32768 (70, loan .cartridge .planned none) }
    s.engine.passing = true ∧ s.nextReader = some (3, reader 0 0 [5]) ∧ s.noneReady ∧ 32768 ≤ s.loans.length := by
  refine ⟨rfl, rfl, fun j h => ?_, ?_⟩
  · cases h
  · exact (List.length_replicate (n := 32768) (a := (70, loan .cartridge .planned none))).ge

/-! ### Witnesses: bays -/

theorem witness_bay_presence :
    let reserved := { withLoan (loan .cartridge .planned (some 4)) with
      bays := (withBay .reserved (some 70) none).bays
      chanA := copying .image false .storeRequest, chanB := copying .image false .storeRequest }
    let written := { withLoan (loan .cartridge .written (some 4)) with bays := (withBay .written (some 70) none).bays }
    let held := { base with chanA := copying .image false .none }
    base.mode = .ready ∧ (base.bay 4).state = .empty ∧ (base.bay 4).command = none ∧ base.lineHeld 4 = false ∧
    held.lineHeld 4 = true ∧ (held.bay 4).state = .empty ∧ State.reset.mode ≠ .ready ∧
    (written.bay 4).tag = some 70 ∧ written.loan 70 = some (loan .cartridge .written (some 4)) ∧
    ((withLoan (loan .cartridge .written none)).loan 70) = some (loan .cartridge .written none) ∧
    (reserved.bay 4).state = .reserved ∧ reserved.firstFit (loan .cartridge .planned (some 4)).need = none ∧
    reserved.idleChannel = none ∧ reserved.writeQueue.length < 128 := by decide

theorem witness_identify :
    let s := withBay .identifying none (some (.readIdentity, 350))
    let named := { withLoan (loan .cartridge .written none) with bays := s.bays }
    let waiting : Job := { tag := 71, bay := none, attempts := 0, holder := none, rehome := some 900 }
    let bayless := { s with
      loans := [(71, loan .cartridge .planned none)], copyQueue := [waiting]
      chanA := copying .image false .storeRequest, chanB := copying .image false .storeRequest }
    let plain := base.setBay 4 { Bay.vacant with state := .identifying, command := some (.readIdentity, 350) }
    (plain.bay 4).identity = none ∧ (s.bay 4).command = some (.readIdentity, 350) ∧ parseIdentity [] = none ∧
    parseIdentity (identity 4095 7 1 0) =
      some { serial := 77, capacity := 4095, wear := 7, content := .blank, tagArea := 0 } ∧
    parseIdentity (identity 4096 5000 1 0) =
      some { serial := 77, capacity := 4096, wear := 5000, content := .blank, tagArea := 0 } ∧
    parseIdentity (identity 4096 4999 1 0) =
      some { serial := 77, capacity := 4096, wear := 4999, content := .blank, tagArea := 0 } ∧
    parseIdentity (identity 4096 7 2 70) =
      some { serial := 77, capacity := 4096, wear := 7, content := .recorded, tagArea := 70 } ∧
    s.wearLimit = 5000 ∧ s.noneReady ∧ s.lineHeld 4 = false ∧
    named.loan 70 = some (loan .cartridge .written none) ∧ (named.bay 4).eraseStarted = false ∧
    s.namedLoan { serial := 77, capacity := 4096, wear := 7, content := .recorded, tagArea := 70 } = none ∧
    bayless.idleChannel = none ∧ bayless.loan 71 = some (loan .cartridge .planned none) ∧
    bayless.copyQueue.find? (fun k => bayless.bayless k && decide (bayless.needOf k ≤ 4016)) = some waiting := by
  unfold State.noneReady; decide

theorem witness_identified_return :
    let s (st : LoanState) := { withLoan (loan .cartridge st none) with
      bays := (withBay .identifying none (some (.readIdentity, 350))).bays }
    (s .returning).loan 70 = some (loan .cartridge .returning none) ∧ (s .mailed).loan 70 = some (loan .cartridge .mailed none) ∧
    (s .overdue).noneReady ∧ (s .overdue).lineHeld 4 = false ∧ ((s .overdue).bay 4).state = .identifying := by
  unfold State.noneReady; decide

theorem witness_erase :
    let s := withBay .erasing none (some (.erase, 350))
    let t := withBay .erasing none (some (.reread, 350))
    (s.bay 4).state = .erasing ∧ (s.bay 4).command = some (.erase, 350) ∧ (t.bay 4).command = some (.reread, 350) ∧
    ((s.bay 4).identity).isSome = true ∧ t.noneReady ∧ t.wearLimit = 5000 ∧
    (parseIdentity (identity 65536 8 2 0)).map Identity.content = some .recorded ∧
    (parseIdentity (identity 65536 5000 1 0)).map Identity.wear = some 5000 ∧
    (parseIdentity (identity 65536 4999 1 0)).map Identity.wear = some 4999 := by
  unfold State.noneReady; decide

theorem witness_bay_timers :
    let s := base.setBay 4 { bay .blank none none with ejectPulse := some 300 }
    let waiting : Job := { job with bay := none, holder := none, rehome := some 900 }
    let t := { withLoan (loan .cartridge .planned none) with copyQueue := [waiting] }
    let due := { base with chanA := copying .image false (.commandDue .drain 350) }
    (s.bay 4).ejectPulse = some 300 ∧ State.reset.lamp.sending = some 0 ∧ t.job 70 = some waiting ∧
    waiting.rehome = some 900 ∧ t.loan 70 = some (loan .cartridge .planned none) ∧ (base.bay 4).command = none ∧
    (∀ c ∈ [Chan.a, Chan.b], (base.chan c).bay ≠ some 4) ∧ (due.chan .a).bay = some 4 ∧
    (due.chan .a).activity = .commandDue .drain 350 ∧ (due.chan .b).bay ≠ some 4 := by decide

/-! ### Witnesses: channels -/

theorem witness_channel_writes :
    let sent := Activity.commandSent (.writeBlock 16 []) 350
    let header := copyState .writing (copying .header false sent)
    let past := { copying .image false sent with
      set1 := { first := 128, last := 191, now := 192, count := 1 }, sum := { s1 := 1, s2 := 2 } }
    let ended := copyState .writing past
    header.noneReady ∧ (header.chan .a).stopping = false ∧ (header.chan .a).bay = some 4 ∧ header.grant = none ∧
    header.searchFrom = .staging ∧ Chan.requester .a = .chanA ∧ ({ header with grant := some .chanB } : State).grant ≠ none ∧
    (copying .image false sent).imageEnded = false ∧ past.imageEnded = true ∧
    past.entry = some { title := 5, offset := 16, length := 64 } ∧ ended.cart 5 = some (cart .resident 1) ∧
    (cart .resident 1).declared = past.sum ∧ past.titles.length ≤ past.index ∧
    ({ copying .index false sent with block := 14 } : Channel).block + 1 < 16 ∧
    (copying .tagging false (.commandSent (.writeTag 70) 350)).state = .tagging := by
  unfold State.noneReady; decide

theorem witness_channel_reads :
    let x := copying .image false (.storeRead true)
    let y := { copying .verify false (.commandSent (.readBlock 79) 350) with block := 79, sum := { s1 := 1, s2 := 1 } }
    let s := copyState .writing x
    let t := copyState .verifying y
    s.noneReady ∧ (s.chan .a).activity = .storeRead true ∧ s.grant ≠ some (Chan.requester .a) ∧ (s.bay 4).ready = false ∧
    ((s.setBay 4 (bay .writing (some 70) none)).bay 4).ready = true ∧
    y.entry = some { title := 5, offset := 16, length := 64 } ∧ t.cart 5 = some (cart .resident 1) ∧ y.block < 16 + 64 ∧
    16 + 64 ≤ ({ y with block := 80 } : Channel).block ∧ (cart .resident 1).declared = y.sum.addBytes [0, 0] ∧
    (cart .resident 1).declared ≠ y.sum.addBytes [1, 0] ∧ y.attempts < t.copyRetryLimit := by
  unfold State.noneReady; decide

theorem witness_channel_faults :
    let s := copyState .writing (copying .image false (.commandSent (.writeBlock 17 []) 350))
    let t := copyState .writing (copying .retryErase false (.commandSent .erase 350))
    s.noneReady ∧ s.loan 70 = some (loan .cartridge .copying (some 4)) ∧ s.job 70 = some job ∧ job.holder = some .a ∧
    (s.bay 4).ready = false ∧ (s.chan .a).attempts < s.copyRetryLimit ∧ s.copyRetryLimit ≤ 2 ∧
    s.firstFit (loan .cartridge .copying (some 4)).need = none ∧ (t.chan .a).activity = .commandSent .erase 350 ∧
    t.cart 5 = some (cart .resident 1) ∧ s.writeQueue.length < 128 := by
  unfold State.noneReady; decide

theorem witness_drain_and_stop :
    let s := copyState .tagging (copying .draining false (.commandSent .drain 350))
    s.noneReady ∧ (s.chan .a).state = .draining ∧ (s.bay 4).identity.isSome = true ∧
    s.reader 11 = some (3, reader 1 0 []) := by
  unfold State.noneReady; decide

/-- A channel told to stop by a cancel, at each command, and at a store read with the grant ended or held. -/
theorem witness_stop_cancel :
    let block : CartCommand := .writeBlock 16 []
    let t (st : ChanState) (a : Activity) : State :=
      { base.setBay 4 (bay .erasing none none) with chanA := copying st true a }
    (∀ p ∈ [(ChanState.header, Activity.commandSent block 350), (.image, .commandSent block 350),
        (.index, .commandSent block 350), (.verify, .commandSent (.readBlock 16) 350),
        (.tagging, .commandSent (.writeTag 70) 350), (.draining, .commandSent .drain 350),
        (.retryErase, .commandSent .erase 350), (.retryErase, .commandDue .erase 350), (.image, .storeRead true)],
      let u := t p.1 p.2
      (u.chan .a).bay = some 4 ∧ (u.chan .a).tag = some 70 ∧ (u.chan .a).stopping = true ∧ (u.chan .a).state = p.1 ∧
      (u.chan .a).activity = p.2 ∧ u.job 70 = none ∧ (u.bay 4).state = .erasing ∧ (u.bay 4).eraseStarted = false ∧
      (u.chan .b).bay ≠ some 4 ∧ u.grant ≠ some (Chan.requester .a) ∧ u.noneReady) ∧
    (let u : State := { t .image (.storeRead false) with grant := some .chanA }
     u.grant = some (Chan.requester .a) ∧ u.stagingWriter = none ∧ (u.chan .b).activity ≠ .storeRequest ∧ u.noneReady) := by
  unfold State.noneReady; decide

/-- A channel told to stop by a removal during a store read: the job gone, the bay EMPTY or seated again; the job kept,
with no bay that fits, or with one while the other channel copies. -/
theorem witness_stop_removal :
    let x := copying .image true (.storeRead true)
    let gone : State := { base with chanA := x }
    let seated : State := { withBay .identifying none none with chanA := x }
    let lone : Job := { job with bay := none }
    let kept : State := { withLoan (loan .cartridge .planned none) with
      copyQueue := [lone], chanA := x, chanB := { copying .image false .storeRequest with tag := some 71, bay := some 5 }
      titles := [(5, cartTitle .resident 1)] }
    let moved := kept.setBay 7 (bay .blank none none)
    gone.job 70 = none ∧ (gone.bay 4).state = .empty ∧ gone.grant ≠ some (Chan.requester .a) ∧ gone.noneReady ∧
    (seated.bay 4).state = .identifying ∧ (seated.bay 4).command = none ∧ (seated.chan .b).bay ≠ some 4 ∧
    kept.job 70 = some lone ∧ lone.holder = some .a ∧ kept.noneReady ∧ (kept.bay 4).state = .empty ∧
    kept.loan 70 = some (loan .cartridge .planned none) ∧ kept.firstFit (loan .cartridge .planned none).need = none ∧
    moved.firstFit (loan .cartridge .planned none).need = some 7 ∧ (moved.bay 7).ready = true ∧ moved.noneReady ∧
    moved.writeQueue.length < 127 ∧ (moved.chan .b).state ≠ .idle ∧ moved.cart 5 = some (cart .resident 1) := by
  unfold State.noneReady; decide

/-! ### Witnesses: mailing line and returns station -/

theorem witness_line :
    let cmd (c : LineCommand) (phase : LinePhase) (sent : Nat) : LineSend :=
      { command := c, station := 3, chars := [], sent := sent, retries := some 2, phase := phase }
    let item : LineJob := { kind := .contain 70, route := some 6, stage := .label }
    let s := { withLoan (loan .cartridge .written (some 4)) with
      lineJobs := [item], lineCmd := some (cmd .label (.awaiting 140) 1) }
    let online := { base with stations := Vector.replicate 30 .online }
    s.loan 70 = some (loan .cartridge .written (some 4)) ∧ (s.bin 6).state = .open ∧
    parseAnswer 3 [addressChar 3, dataChar 0x06] = some .ack ∧
    parseAnswer 3 [addressChar 3, dataChar 0x15, dataChar 255] = some (.nak 255) ∧
    s.station (s.gateStation 6) ≠ .offline ∧ ((s.bin 6).list ++ [70]).length < s.triggerLevel 6 ∧
    ({ s with settings := [(154, 1)] } : State).triggerLevel 6 ≤ ((s.bin 6).list ++ [70]).length ∧
    online.station 3 ≠ .unused ∧ online.station 3 = .online ∧ (cmd .ping .sending 1).phase = .sending ∧
    (cmd .gatesHome (.quiet 140) 1).phase = .quiet 140 ∧ (cmd .ping (.awaiting 140) 2).sent ≤ 2 ∧
    2 < (cmd .ping (.awaiting 140) 3).sent := by decide

theorem witness_close_timer :
    let s := (withLoan (loan .cartridge .bagged none)).setBin 6 { state := .open, list := [70], closeTimer := some 900 }
    (s.bin 6).closeTimer = some 900 ∧ (s.bin 6).list = [70] ∧ s.loan 70 = some (loan .cartridge .bagged none) ∧
    s.writeQueue.length < 128 := by decide

theorem witness_returns :
    let r (presence : Bool) (st : Stage) : Recognizer :=
      { Recognizer.idle presence with stage := st, readOutstanding := true, dropoutTimer := some 115 }
    let settled : Recognizer :=
      { Recognizer.idle false with
        stage := .settled, tag := some 70, patron := some 11, clearTimer := some 200, departureTimer := some 400 }
    let s (st : LoanState) := { withLoan (loan .cartridge st none) with recog := settled }
    base.recog.stage = .idle ∧ base.recog.presence = false ∧ base.mode = .ready ∧ (r true .sensed).presence = true ∧
    (r true .tagRead).stage = .tagRead ∧ (r false .sensed).dropoutTimer = some 115 ∧ base.now ≤ 115 ∧
    parseTagAnswer (0x01 :: tagCard 70 11) = .card 70 11 ∧ (r true .sensed).dwellMet = false ∧
    (s .mailed).loan 70 = some (loan .cartridge .mailed none) ∧ (loan .cartridge .mailed none).patron = 11 ∧
    (s .mailed).reader 11 = some (3, reader 1 1 [5]) ∧ settled.clearTimer = some 200 ∧
    settled.departureTimer = some 400 ∧ (s .returning).loan 70 = some (loan .cartridge .returning none) := by decide

/-! ### Witnesses: the other clauses -/

/-- An ABSENT title of 1,250 blocks beside others, with a free-extent map. -/
def toStage (free : List Run) (others : Table Title) : State :=
  { base with
    freeMap := free
    titles := (5, { withdrawing := false, body := .cart { cart .absent 0 with length := 1250, run1 := none } }) :: others }

/-- A RESIDENT unpinned title of 20 extents. -/
def old (first lastUse : Nat) : CartTitle :=
  { cart .resident 0 with length := 1280, lastUse := lastUse, run1 := some { first := first, count := 20 } }

theorem witness_stage_two_runs :
    let free : List Run := [{ first := 0, count := 5 }, { first := 10, count := 15 }, { first := 40, count := 7 },
      { first := 60, count := 15 }]
    (toStage free []).free .cp ∧ (∀ x ∈ free, x.count < 20) ∧
    free = [{ first := 0, count := 5 }] ++ { first := 10, count := 15 } :: free.drop 2 ∧
    (∀ x ∈ free.take 1, x.count < 15) ∧ (∀ x ∈ free.drop 2, x.count ≤ 15) ∧
    (free.filter (fun x => x ≠ { first := 10, count := 15 })).find? (fun x => decide (20 - 15 ≤ x.count)) =
      some { first := 0, count := 5 } := by
  unfold State.free; decide

/-- Title 7 is evicted before 8, of the same last-use day, and before 9, used later. -/
theorem witness_stage_evicts :
    let held (first lastUse : Nat) : Title := { withdrawing := true, body := .cart (old first lastUse) }
    let s := toStage [{ first := 0, count := 5 }, { first := 10, count := 6 }] [(7, held 30 2), (8, held 60 2), (9, held 90 3)]
    s.free .cp ∧ Table.sorted s.titles = true ∧ (s.taking .cp (.stageBegin 5)).evictsInTurn 20 [(7, true, old 30 2)] ∧
    ((s.taking .cp (.stageBegin 5)).evictedInTurn [(7, true, old 30 2)]).freeMap.find? (fun x => decide (20 ≤ x.count)) =
      some { first := 30, count := 20 } ∧ s.writeQueue.length + 1 < 128 := by
  refine ⟨by unfold State.free; decide, by decide, ⟨by unfold noRoom; decide, ⟨⟨rfl, rfl, rfl⟩, fun x m k other h => ?_⟩,
    trivial⟩, by decide, by decide⟩
  obtain ⟨found, st, -⟩ := h
  change Table.find x [_, _, _, _] = _ at found
  simp only [Table.find] at found
  split at found
  · cases found; cases st
  · split at found
    · omega
    · split at found
      · cases found; exact .inr ⟨rfl, by omega⟩
      · split at found <;> cases found
        exact .inl (by decide)

/-- A RESIDENT unpinned title of four extents. -/
def oldSmall (first lastUse : Nat) : CartTitle :=
  { old first lastUse with length := 256, run1 := some { first := first, count := 4 } }

/-- A part with one title of four extents to evict, `queued` units waiting and no run of 20 extents to come of it. -/
def littleToEvict (queued : Nat) : State :=
  { toStage [{ first := 0, count := 5 }, { first := 10, count := 6 }]
      [(7, { withdrawing := false, body := .cart (oldSmall 30 2) })] with
    writeQueue := List.replicate queued [.nextTag 2] }

theorem witness_one_eviction (queued : Nat) :
    ((littleToEvict queued).taking .cp (.stageBegin 5)).evictsInTurn 20 [(7, false, oldSmall 30 2)] := by
  refine ⟨by show noRoom 20 [⟨0, 5⟩, ⟨10, 6⟩]; unfold noRoom; decide, ⟨⟨rfl, rfl, rfl⟩, fun x m k other h => ?_⟩, trivial⟩
  obtain ⟨found, st, -⟩ := h
  change Table.find x [_, _] = _ at found
  simp only [Table.find] at found
  split at found
  · cases found; cases st
  · split at found
    · omega
    · cases found

/-- No title is left to evict, and the runs free are too short. -/
theorem witness_store_full :
    let t := ((littleToEvict 0).taking .cp (.stageBegin 5)).evictedInTurn [(7, false, oldSmall 30 2)]
    (littleToEvict 0).free .cp ∧ (littleToEvict 0).writeQueue.length + 1 ≤ 128 ∧ Table.sorted (littleToEvict 0).titles = true ∧
    noRoom 20 t.freeMap ∧ ∀ v m k, ¬t.evictable v m k := by
  refine ⟨by unfold State.free; decide, by decide, by decide, by unfold noRoom; decide, fun x m k h => ?_⟩
  obtain ⟨found, st, -⟩ := h
  change Table.find x [_, _] = _ at found
  simp only [Table.find] at found
  split at found
  · cases found; cases st
  · split at found <;> cases found
    cases st

/-- The eviction fills the write queue, and the run it frees waits for the staging. -/
theorem witness_stage_waits :
    let s := { littleToEvict 127 with freeMap := [{ first := 34, count := 16 }, { first := 60, count := 1 }] }
    (s.taking .cp (.stageBegin 5)).evictsInTurn 20 [(7, false, oldSmall 30 2)] ∧ s.writeQueue.length + 1 = 128 ∧
    ∃ x ∈ ((s.taking .cp (.stageBegin 5)).evictedInTurn [(7, false, oldSmall 30 2)]).freeMap, 20 ≤ x.count :=
  ⟨⟨by unfold noRoom; decide, (witness_one_eviction 127).2.1, trivial⟩,
    congrArg (· + 1) (List.length_replicate (n := 127) (a := ([.nextTag 2] : WriteUnit))),
    { first := 30, count := 20 }, by decide, by decide⟩

/-- A PLANNED loan with a bay, and one whose job waits under the re-home limit. -/
theorem witness_cancel_planned :
    let inBay := { (withLoan (loan .cartridge .planned (some 4))).setBay 4 (bay .reserved (some 70) none) with
      copyQueue := [{ job with holder := none }] }
    let without := { withLoan (loan .cartridge .planned none) with
      copyQueue := [{ job with bay := none, holder := none, rehome := some 900 }] }
    without.free .cp ∧ without.loan 70 = some (loan .cartridge .planned none) ∧
    (∀ j ∈ without.copyQueue, j.tag = 70 ∨ j.holder ≠ none ∨ j.bay = none) ∧
    without.writeQueue.length + (loan .cartridge .planned none).titles.length < 128 ∧
    inBay.free .cp ∧ inBay.loan 70 = some (loan .cartridge .planned (some 4)) ∧ inBay.lineHeld 4 = false ∧
    (∀ j ∈ inBay.copyQueue, j.tag = 70 ∨ j.holder ≠ none ∨ j.bay = none) := by
  unfold State.free; decide

/-- An UNFORMATTED part whose mark is neither valid nor absent. -/
theorem witness_format_invalid :
    let u := { base with mode := .unformatted, mem := { base.mem with mark := [0xA7, 0x5C, 0x31, 0xE0, 1, 0, 0] } }
    testMark u.mem.mark ≠ .absent ∧ (u.port .cp).resetLine = false ∧ (u.port .cp).applying = false ∧
    u.writeQueue.length ≤ 125 := by decide

theorem witness_contain_stopped :
    let s := withLoan (loan .cartridge .written (some 4))
    let closed := s.setBin 6 { state := .closed, list := [], closeTimer := none }
    let off := s.setStation s.labelStation .offline
    closed.free .fp ∧ off.free .fp ∧ (closed.bin 6).state ≠ .open ∧ off.station off.labelStation = .offline ∧
    closed.reader 11 = some (3, reader 1 1 [5]) ∧ (off.bin 6).state = .open := by
  unfold State.free; decide

/-- R195: bytes of 0x00 before a request and after the reply; the one byte of BUSY is the reply. -/
theorem test_data_out :
    let busy : PortUnit := { base.cp with exchange := some { reply := .busy, handOver := .none, ended := false } }
    base.cp.dataOut 0 = some 0 ∧ busy.dataOut 0 = some 0x82 ∧ busy.dataOut 1 = some 0 ∧
    ({ busy with resetLine := true } : PortUnit).dataOut 0 = none := by decide

/-- A REMOVE COPY handed over at the head of the CP queue while the write queue holds 128 units. -/
theorem witness_application_held :
    let s := { fullQueue with
      titles := [(5, volTitle 2 2)], cp := { base.cp with posted := [.removeCopy 5], applying := true, handed := true } }
    let t := s.setPort .cp { s.cp with applying := true, handed := false }
    (s.port .cp).posted = [.removeCopy 5] ∧ (s.port .cp).applying = true ∧ (s.port .cp).handed = true ∧
    s.writeQueue.length < (applyPosted .cp (.removeCopy 5) t).writeQueue.length ∧
    128 < (applyPosted .cp (.removeCopy 5) t).writeQueue.length := by
  intro s t
  have h : (applyPosted .cp (.removeCopy 5) t).writeQueue = s.writeQueue ++ [[.title 5 (some (volTitle 1 1).kept)]] := rfl
  have n : s.writeQueue.length = 128 := List.length_replicate ..
  refine ⟨rfl, rfl, rfl, ?_, ?_⟩ <;> rw [h, List.length_append, n] <;> decide

theorem witness_records_ready :
    let s := { State.reset with startup := .formatted, cp := { State.reset.cp with posted := [.formatRecords], applying := true } }
    (∀ b, (s.bay b).state = .empty) ∧ s.lineJobs = [] ∧ s.lineCmd = none ∧ Table.sorted s.mem.loans = true ∧
    s.cp.posted.head? = some .formatRecords := by decide

/-- R101 and R110: at records ready a rebuilt job starts its re-home timer. -/
theorem test_rebuilt_job_waits :
    let rebuilt : Job := { tag := 70, bay := none, attempts := 0, holder := none, rehome := none }
    let s := { State.reset with
      startup := .reconciled, loans := [(70, loan .cartridge .planned none)], copyQueue := [rebuilt], now := 5 }
    s.seekAll.copyQueue = [{ rebuilt with rehome := some (5 + s.rehomeLimit) }] := by decide

theorem witness_visits_passed :
    let passing : Engine := { Engine.idle with passing := true, start := 1, next := some 1 }
    let s : State := { base with
      titles := [(5, volTitle 2 0), (6, cartTitle .resident 0), (7, volTitle 3 2)]
      patrons := [(3, reader 1 0 [5, 6, 9, 7])], engine := passing }
    s.nextReader = some (3, reader 1 0 [5, 6, 9, 7]) ∧ s.noneReady ∧ (∀ b, (s.bay b).state ≠ .blank) ∧
    s.title 5 = some (volTitle 2 0) ∧ (vol 2 0).onShelf = 0 ∧ s.title 6 = some (cartTitle .resident 0) ∧ s.title 9 = none ∧
    s.title 7 = some (volTitle 3 2) ∧ ({ base with engine := passing } : State).nextReader = none ∧
    passing.passing = true := by
  unfold State.noneReady; decide

/-- Bays 4 and 9 both fit; 4 is the smaller. -/
theorem witness_visit_chooses :
    let passing : Engine := { Engine.idle with passing := true, start := 1, next := some 1 }
    let s : State :=
      { ((base.setBay 4 (bay .blank none none)).setBay 9 { bay .blank none none with usable := 129008 }) with
        titles := [(5, volTitle 2 0), (6, cartTitle .resident 0)], patrons := [(3, reader 1 0 [5, 6])], engine := passing
        chanA := copying .image false .storeRequest, chanB := copying .image false .storeRequest }
    s.nextReader = some (3, reader 1 0 [5, 6]) ∧ (reader 1 0 [5, 6]).wants.Nodup ∧ s.title 5 = some (volTitle 2 0) ∧
    s.title 6 = some (cartTitle .resident 0) ∧ s.copyQueue.length < 24 ∧ (s.bay 4).releasePending = false ∧
    8 * ((64 + 1 + 7) / 8) ≤ (s.bay 4).usable ∧ s.idleChannel = none ∧
    (∀ x, (s.bay x).state = .blank → (s.bay x).releasePending = false →
      (s.bay 4).usable < (s.bay x).usable ∨ ((s.bay 4).usable = (s.bay x).usable ∧ (4 : BayNo).val ≤ x.val)) := by
  decide

theorem witness_removal :
    let s (st : BayState) (a : Activity) := copyState st (copying .image false a)
    (s .writing (.storeRead false)).noneReady ∧ (s .writing (.storeRead false)).job 70 = some job ∧
    ((s .writing (.storeRead true)).bay 4).tag = some 70 ∧
    ((s .verifying (.storeRead true)).loan 70) = some (loan .cartridge .copying (some 4)) ∧
    ((s .tagging (.commandSent .drain 350)).chan .a).activity = .commandSent .drain 350 ∧
    (s .tagging (.commandSent .drain 350)).firstFit (loan .cartridge .copying (some 4)).need = none ∧
    (∀ k ∈ (s .tagging (.commandSent .drain 350)).copyQueue, k.tag = 70 → k = job) ∧
    ((s .writing .storeRequest).chan .a).activity = .storeRequest ∧
    ((s .writing (.commandDue (.writeTag 70) 350)).chan .a).activity = .commandDue (.writeTag 70) 350 := by
  unfold State.noneReady; decide

/-- A seated blank for the oldest bayless job, with channel A IDLE. -/
theorem witness_hand_over :
    let bayless : Job := { tag := 71, bay := none, attempts := 0, holder := none, rehome := some 900 }
    let s := { withBay .identifying none (some (.readIdentity, 350)) with
      titles := [(5, cartTitle .resident 0)], loans := [(71, loan .cartridge .planned none)], copyQueue := [bayless] }
    s.noneReady ∧ s.idleChannel = some .a ∧ s.loan 71 = some (loan .cartridge .planned none) ∧
    s.copyQueue.find? (fun k => s.bayless k && decide (s.needOf k ≤ 4096 - 16 - 4096 / 64)) = some bayless ∧
    s.cart 5 = some (cart .resident 0) ∧ s.writeQueue.length < 127 ∧
    (parseIdentity (identity 4096 7 1 0)).map Identity.content = some .blank := by
  unfold State.noneReady; decide

/-- Channel A past the last block of title 5, with title 9 next and another bay on channel B. -/
def imageDone (sum : ImageSum) (next : TitleState) : State :=
  { copyState .writing
      { copying .image false (.commandSent (.writeBlock 16 []) 350) with
        set1 := { first := 128, last := 191, now := 192, count := 1 }, sum := sum
        titles := [{ title := 5, offset := 16, length := 64 }, { title := 9, offset := 88, length := 64 }] } with
    titles := [(5, cartTitle .resident 1), (9, cartTitle next 1)] }

theorem witness_image_ends :
    let s := imageDone { s1 := 1, s2 := 3 } .resident
    let t := imageDone { s1 := 1, s2 := 2 } .damaged
    let u := imageDone { s1 := 1, s2 := 2 } .retiring
    s.noneReady ∧ (s.chan .a).imageEnded = true ∧ (s.chan .a).entry = some { title := 5, offset := 16, length := 64 } ∧
    s.title 5 = some (cartTitle .resident 1) ∧ (cart .resident 1).declared ≠ (s.chan .a).sum ∧
    s.loan 70 = some (loan .cartridge .copying (some 4)) ∧ (s.chan .b).bay ≠ some 4 ∧
    s.writeQueue.length + (loan .cartridge .copying (some 4)).titles.length + 1 < 128 ∧
    (cart .resident 1).declared = (t.chan .a).sum ∧ t.cart 9 = some (cart .damaged 1) ∧
    (t.chan .a).titles[(t.chan .a).index]? = some { title := 9, offset := 88, length := 64 } ∧
    u.cart 9 = some (cart .retiring 1) ∧ u.noneReady ∧ (cart .retiring 1).pins ≠ 0 ∧ (cart .damaged 1).pins ≠ 0 ∧
    (cart .retiring 1).declared ≠ (s.chan .a).sum ∧ s.stagingWriter = none ∧ (s.chan .b).activity ≠ .storeRequest := by
  unfold State.noneReady; decide

/-- A store read completed under the grant, and the read-back of a title with another behind it. -/
theorem witness_more_reads :
    let s := copyState .writing (copying .image false (.storeRead false))
    let granted := { s.setBay 4 { s.bay 4 with ready := true } with grant := some .chanA }
    let y := { (imageDone .zero .resident).chan .a with
      state := .verify, activity := .commandSent (.readBlock 80) 350, block := 80, sum := { s1 := 1, s2 := 1 } }
    (granted.chan .a).activity = .storeRead false ∧ granted.grant = some (Chan.requester .a) ∧
    granted.stagingWriter = none ∧ (granted.chan .b).activity ≠ .storeRequest ∧ (granted.bay 4).ready = true ∧
    granted.noneReady ∧ y.entry = some { title := 5, offset := 16, length := 64 } ∧ 16 + 64 ≤ y.block ∧
    (cart .resident 1).declared = y.sum.addBytes [0, 0] ∧
    y.titles[y.index]? = some { title := 9, offset := 88, length := 64 } := by
  unfold State.noneReady; decide

/-- A given-up job for which bay 9 is in the pool, channel B busy. -/
theorem witness_gave_up_moves :
    let s (st : ChanState) (cmd : CartCommand) : State :=
      { (copyState .writing { copying st false (.commandSent cmd 350) with attempts := 3 }).setBay 9
          { bay .blank none none with ready := true } with
        chanB := copying .image false .storeRequest }
    let x := s .image (.writeBlock 17 [])
    let y := s .retryErase .erase
    x.noneReady ∧ x.firstFit (loan .cartridge .copying (some 4)).need = some 9 ∧ (x.bay 9).ready = true ∧
    (x.bay 4).ready = false ∧ (x.chan .b).state ≠ .idle ∧ x.cart 5 = some (cart .resident 1) ∧
    (∀ i ∈ x.copyQueue, i.tag = 70 → i = job) ∧ x.copyRetryLimit ≤ (x.chan .a).attempts ∧ y.noneReady ∧
    y.firstFit (loan .cartridge .copying (some 4)).need = some 9 ∧ (y.chan .a).state = .retryErase := by
  unfold State.noneReady; decide

/-- A CONTAIN ITEM whose LABEL or GATE is out at station 3, and what can have changed under it. -/
def labelling (st : LoanState) (c : LineCommand) (sent : Nat) : State :=
  { withLoan (loan .cartridge st (some 4)) with
    stations := Vector.replicate 30 .online
    lineJobs := [{ kind := .contain 70, route := some 6, stage := .label }]
    lineCmd := some
      { command := c, station := 3, chars := [], sent := sent, retries := some 2, phase := .awaiting 140 } }

theorem witness_line_refusals :
    let s := labelling .written .gate 1
    let gone := { s with loans := [] }
    let closed := s.setBin 6 { state := .closed, list := [], closeTimer := none }
    let off := s.setStation (s.gateStation 6) .offline
    gone.loan 70 = none ∧ (gone.bin 6).state = .open ∧ (closed.bin 6).state ≠ .open ∧
    off.station (off.gateStation 6) = .offline ∧ (off.bin 6).state = .open ∧
    (labelling .bagged .label 1).loan 70 = some (loan .cartridge .bagged (some 4)) ∧
    parseAnswer 3 [addressChar 3, dataChar 0x15, dataChar 255] = some (.nak 255) ∧ s.now ≤ 140 ∧
    140 < ({ s with now := 141 } : State).now ∧ 2 < 3 ∧ (labelling .written .gate 3).station 3 = .online := by decide

/-- A PING answered with a PING, or a CONTAIN ITEM, behind it. -/
theorem witness_next_line_job :
    let ping (a : Nat) (stage : LineStage) : LineJob := { kind := .ping a, route := none, stage := stage }
    let item : LineJob := { kind := .contain 70, route := none, stage := .waiting }
    let s (st : LoanState) (rest : List LineJob) : State :=
      { labelling st .ping 1 with lineJobs := ping 3 .ping :: rest }
    (s .written [ping 9 .waiting, item]).station 3 ≠ .unused ∧
    (parseAnswer 3 [addressChar 3, dataChar 0x06]).isSome = true ∧
    (s .picked [item]).reader 11 = some (3, reader 1 1 [5]) ∧
    ((s .picked [item]).setStation 3 .online).station (s .picked [item]).labelStation ≠ .offline ∧
    ({ s .written [item] with loans := [] } : State).loan 70 = none ∧
    (s .mailed [item]).loan 70 = some (loan .cartridge .mailed (some 4)) ∧
    (((s .written [item]).setStation 1 .offline).setStation 3 .online).station (s .written [item]).labelStation =
      .offline := by decide

/-- A bin that lists two loans. -/
theorem witness_release_two :
    let l := loan .cartridge .bagged none
    let s := { base with loans := [(70, l), (71, l)] }.setBin 6 { state := .open, list := [71, 70], closeTimer := some 900 }
    (s.bin 6).list = [(71, l), (70, l)].map (fun x => x.1) ∧ ([(71, l), (70, l)].map (fun x => x.1)).Nodup ∧
    (∀ x ∈ [(71, l), (70, l)], s.loan x.1 = some x.2) ∧ (s.bin 6).closeTimer = some 900 := by decide

/-- A recognition in a gap, and one in SETTLED whose loan is of another reader. -/
theorem witness_returns_failures :
    let gap (st : Stage) (dwell : Bool) : Recognizer :=
      { Recognizer.idle false with
        stage := st, readOutstanding := true, dropoutTimer := some 115, dwellMet := dwell, tag := some 70
        patron := some 12, clearTimer := some 200 }
    let s : State := { withLoan (loan .cartridge .mailed none) with recog := gap .settled true }
    base.now ≤ 115 ∧ (gap .tagRead true).dwellMet = true ∧ (gap .tagRead false).presence = false ∧
    parseTagAnswer (0x01 :: tagCard 1048576 11) = .card 1048576 11 ∧ parseTagAnswer [0] = .noCard ∧
    s.loan 70 = some (loan .cartridge .mailed none) ∧ (loan .cartridge .mailed none).patron ≠ 12 ∧
    s.recog.clearTimer = some 200 ∧ s.recog.patron = some 12 := by decide

/-- R188 and log entry 8: an expiry held back, whose timer was restarted meanwhile, is void. -/
theorem test_stale_expiry :
    let s : State := { toStage [] [] with titles := [(5, { withdrawing := false, body := .cart { cart .staging 0 with idleTimer := some 900 } })] }
    let stale : Held := { event := .stagingIdleExpiry 5, awaited := .timer (some 300) }
    s.takeHeld stale = s := by decide

/-- R93: a removal discards the old cartridge's record that waits for a place in the write queue, and no other event. -/
theorem test_removal_discards_record :
    let old : Held := { event := .identityRecordReceived 4 [], awaited := .bayCommand (some (.readIdentity, 350)) }
    let other : Held := { event := .identityRecordReceived 5 [], awaited := .bayCommand none }
    let s := { withBay .identifying none (some (.readIdentity, 350)) with waiting := [old, other] }
    (takeBayPresenceOff 4 s).waiting = [other] := by decide

/-- A record held for a reading that is over is not taken as another reading's. -/
theorem test_stale_record :
    let s := withBay .identifying none (some (.readIdentity, 400))
    s.takeHeld { event := .identityRecordReceived 4 (identity 4095 7 1 0), awaited := .bayCommand (some (.readIdentity, 350)) } =
      s := by decide

/-! ### Witnesses: whole-machine statements -/

theorem witness_frame_round_trip :
    (Instr.takeNotice (cpFrame 0 [])).wellFormed = true ∧
    encodeFrame (.takeNotice (cpFrame 0 [])) = some (.cp, false, [0x01, 0, 0, 0, 0, 0, 0xFE]) := by decide

theorem witness_store_canonical :
    State.storeCanonical { base with store := [(128, [1])], pending := [.storeTransferComplete] } := by
  unfold State.storeCanonical; decide

theorem witness_tables_sorted :
    State.tablesSorted { withLoan (loan .cartridge .planned none) with pending := [.selectionVisit] } := by
  unfold State.tablesSorted; decide

theorem witness_ports_bounded : State.portsBounded { base with pending := [.exchangeEnd .cp] } := by
  refine ⟨⟨by decide, by decide, List.Pairwise.nil, by decide⟩, ⟨by decide, by decide, List.Pairwise.nil, by decide⟩⟩

end Sys2Proof.Tests
end

section
/-! SUPPORT. The posted requests a block answers in one step (R172, R173): the command of a request that is refused at its
application, and of one that is applied by handing the change of a title (R23). -/

namespace Sys2Proof.Machine

@[simp] theorem State.taking_title (p : Port) (q : PostedReq) (s : State) (n : Nat) :
    (s.taking p q).title n = s.title n := by cases p <;> rfl

@[simp] theorem State.applied_writeQueue (p : Port) (s : State) : (State.applied p s).writeQueue = s.writeQueue := by
  cases p <;> rfl

@[simp] theorem State.applied_bays (p : Port) (s : State) : (State.applied p s).bays = s.bays := by cases p <;> rfl

@[simp] theorem State.notifyRefused_writeQueue (p : Port) (code : ReqCode) (key : Nat) (why : Reason)
    (values : List Nat) (s : State) : (s.notifyRefused p code key why values).writeQueue = s.writeQueue := by
  simp [State.notifyRefused]

@[simp] theorem State.notifyRefused_bays (p : Port) (code : ReqCode) (key : Nat) (why : Reason)
    (values : List Nat) (s : State) : (s.notifyRefused p code key why values).bays = s.bays := by
  simp [State.notifyRefused]

@[simp] theorem State.saveTitle_writeQueue (n : Nat) (t : Title) (s : State) :
    (s.saveTitle n t).writeQueue = s.writeQueue ++ [[.title n (some t.kept)]] := rfl

@[simp] theorem State.saveTitle_bays (n : Nat) (t : Title) (s : State) : (s.saveTitle n t).bays = s.bays := rfl

/-- A free port leaves a place in the write queue for one unit more (R188). -/
theorem State.free_room {s : State} {p : Port} (hs : s.free p) : s.writeQueue.length < Config.maxUnits := by
  obtain ⟨-, -, -, -, -, hw⟩ := hs
  exact hw

/-- A title changed by a request just handed over, whose application then ends. -/
theorem State.saveTitle_taking (p : Port) (q : PostedReq) (n : Nat) (t : Title) (s : State) :
    ((s.taking p q).saveTitle n t).endPosted p = State.applied p (s.saveTitle n t) := by cases p <;> rfl

section
variable {i e : Instr} {f : Frame} {p : Port} {q : PostedReq} {s : State}

/-- A command that takes a posted request on a free port, refused at its application (R173). -/
theorem exec_postedRefused {code : ReqCode} {key : Nat} {why : Reason} {values : List Nat}
    (hi : exec i s = .next (commit e (State.takePosted q.code f true) s)) (hp : f.port = p) (hs : s.free p)
    (hf : Spells f q) (ht : applyPosted p q (s.taking p q) = State.refuse p code key why values (s.taking p q)) :
    exec i s = .next (State.applied p (s.notifyRefused p code key why values)) := by
  rw [State.refuse_taking] at ht
  exact exec_posted hi hp hs hf ht (by simpa using (State.free_room hs).le) (by simp)

/-- A command that takes a posted request on a free port, applied by the change of a title (R23). -/
theorem exec_postedSaveTitle {n : Nat} {t : Title}
    (hi : exec i s = .next (commit e (State.takePosted q.code f true) s)) (hp : f.port = p) (hs : s.free p)
    (hf : Spells f q) (ht : applyPosted p q (s.taking p q) = ((s.taking p q).saveTitle n t).endPosted p) :
    exec i s = .next (State.applied p (s.saveTitle n t)) := by
  rw [State.saveTitle_taking] at ht
  exact exec_posted hi hp hs hf ht (by simpa using State.free_room hs) (by simp)

end

end Sys2Proof.Machine
end

section
/-! CERTIFICATES. The title requests: REMOVE COPY (R20). -/

namespace Sys2Proof.Machine

/-! ### REMOVE COPY: one equation per row of R20 -/

theorem applyRemoveCopy_undefined {n : Nat} {s : State} (h : s.title n = none) :
    applyRemoveCopy n s = s.refuse .cp .removeCopy n .unknownTitle [] := by
  simp [applyRemoveCopy, h]

theorem applyRemoveCopy_cart {n : Nat} {w : Bool} {c : CartTitle} {s : State}
    (h : s.title n = some { withdrawing := w, body := .cart c }) :
    applyRemoveCopy n s = s.refuse .cp .removeCopy n .wrongState [] := by
  simp [applyRemoveCopy, h]

theorem applyRemoveCopy_noCopy {n : Nat} {w : Bool} {v : VolTitle} {s : State}
    (h : s.title n = some { withdrawing := w, body := .vol v }) (ho : v.owned = 0) :
    applyRemoveCopy n s = s.refuse .cp .removeCopy n .notFound [] := by
  simp [applyRemoveCopy, h, ho]

theorem applyRemoveCopy_noneOnShelf {n : Nat} {w : Bool} {v : VolTitle} {s : State}
    (h : s.title n = some { withdrawing := w, body := .vol v }) (ho : v.owned ≠ 0) (hs : v.onShelf = 0) :
    applyRemoveCopy n s = s.refuse .cp .removeCopy n .onLoan [] := by
  simp [applyRemoveCopy, h, ho, hs]

theorem applyRemoveCopy_onShelf {n : Nat} {w : Bool} {v : VolTitle} {s : State}
    (h : s.title n = some { withdrawing := w, body := .vol v }) (ho : v.owned ≠ 0) (hs : v.onShelf ≠ 0) :
    applyRemoveCopy n s =
      (s.saveTitle n
        { withdrawing := w, body := .vol { v with owned := v.owned - 1, onShelf := v.onShelf - 1 } }).endPosted .cp := by
  simp [applyRemoveCopy, h, ho, hs]

/-- Settles O6: the title record decides between the four refusals and the lowered counts, each on the state in which the
free port has handed the request over. -/
theorem removeCopyApplied : Obligations.RemoveCopyApplied := by
  unfold Obligations.RemoveCopyApplied
  intro s f n hp hs hf
  have taken : exec (.removeCopy f true) s =
      .next (commit (.removeCopy f true) (State.takePosted (PostedReq.removeCopy n).code f true) s) := rfl
  have handed := State.taking_title .cp (.removeCopy n) s n
  match h : s.title n with
  | none => exact exec_postedRefused taken hp hs hf (applyRemoveCopy_undefined (handed.trans h))
  | some { body := .cart _, .. } => exact exec_postedRefused taken hp hs hf (applyRemoveCopy_cart (handed.trans h))
  | some { body := .vol v, .. } =>
    by_cases ho : v.owned = 0
    · simp only [if_pos ho]
      exact exec_postedRefused taken hp hs hf (applyRemoveCopy_noCopy (handed.trans h) ho)
    by_cases hshelf : v.onShelf = 0
    · simp only [if_neg ho, if_pos hshelf]
      exact exec_postedRefused taken hp hs hf (applyRemoveCopy_noneOnShelf (handed.trans h) ho hshelf)
    · simp only [if_neg ho, if_neg hshelf]
      exact exec_postedSaveTitle taken hp hs hf (applyRemoveCopy_onShelf (handed.trans h) ho hshelf)

end Sys2Proof.Machine
end

section
/-! SUPPORT. The posted requests that name a patron (R26, R33): the fields they read, their malformed checks, the refusal
of a malformed one at its exchange (R170), and the command of one that is applied by handing the change of a reader
record (R39). -/

namespace Sys2Proof.Machine

/-! ### What a request just handed over leaves alone -/

@[simp] theorem State.taking_reader (p : Port) (q : PostedReq) (s : State) (number : Nat) :
    (s.taking p q).reader number = s.reader number := by cases p <;> rfl

@[simp] theorem State.taking_patrons (p : Port) (q : PostedReq) (s : State) :
    (s.taking p q).patrons = s.patrons := by cases p <;> rfl

@[simp] theorem State.taking_wantable (p : Port) (q : PostedReq) (s : State) (n : Nat) :
    (s.taking p q).wantable n = s.wantable n := by cases p <;> rfl

@[simp] theorem State.taking_liveLoanNaming (p : Port) (q : PostedReq) (s : State) (patron title : Nat) :
    (s.taking p q).liveLoanNaming patron title = s.liveLoanNaming patron title := by cases p <;> rfl

@[simp] theorem State.savePatron_writeQueue (slot : Nat) (r : Patron) (s : State) :
    (s.savePatron slot r).writeQueue = s.writeQueue ++ [[.patron slot (some r.kept)]] := rfl

@[simp] theorem State.savePatron_bays (slot : Nat) (r : Patron) (s : State) : (s.savePatron slot r).bays = s.bays := rfl

/-- A request just handed over whose application ends with no effect. -/
theorem State.endPosted_taking (p : Port) (q : PostedReq) (s : State) :
    (s.taking p q).endPosted p = State.applied p s := by cases p <;> rfl

/-- A reader record changed by a request just handed over, whose application then ends. -/
theorem State.savePatron_taking (p : Port) (q : PostedReq) (slot : Nat) (r : Patron) (s : State) :
    ((s.taking p q).savePatron slot r).endPosted p = State.applied p (s.savePatron slot r) := by cases p <;> rfl

/-- A reader record changed, with a selection trigger, by a request just handed over, whose application then ends. -/
theorem State.savePatron_trigger_taking (p : Port) (q : PostedReq) (slot : Nat) (r : Patron) (s : State) :
    ((s.taking p q).savePatron slot r).trigger.endPosted p = State.applied p (s.savePatron slot r).trigger := by
  cases p <;> rfl

section
variable {i e : Instr} {f : Frame} {p : Port} {q : PostedReq} {s : State}

/-- A command that takes a posted request on a free port, applied with no effect. -/
theorem exec_postedNoEffect
    (hi : exec i s = .next (commit e (State.takePosted q.code f true) s)) (hp : f.port = p) (hs : s.free p)
    (hf : Spells f q) (ht : applyPosted p q (s.taking p q) = (s.taking p q).endPosted p) :
    exec i s = .next (State.applied p s) := by
  rw [State.endPosted_taking] at ht
  exact exec_posted hi hp hs hf ht (by simpa using (State.free_room hs).le) (by simp)

/-- A command that takes a posted request on a free port, applied by the change of a reader record (R39). -/
theorem exec_postedSavePatron {slot : Nat} {r : Patron}
    (hi : exec i s = .next (commit e (State.takePosted q.code f true) s)) (hp : f.port = p) (hs : s.free p)
    (hf : Spells f q) (ht : applyPosted p q (s.taking p q) = ((s.taking p q).savePatron slot r).endPosted p) :
    exec i s = .next (State.applied p (s.savePatron slot r)) := by
  rw [State.savePatron_taking] at ht
  exact exec_posted hi hp hs hf ht (by simpa using State.free_room hs) (by simp)

/-- A command that takes a posted request on a free port, applied by the change of a reader record with a selection
trigger (R39, R65). -/
theorem exec_postedSavePatronTrigger {slot : Nat} {r : Patron}
    (hi : exec i s = .next (commit e (State.takePosted q.code f true) s)) (hp : f.port = p) (hs : s.free p)
    (hf : Spells f q) (ht : applyPosted p q (s.taking p q) = ((s.taking p q).savePatron slot r).trigger.endPosted p) :
    exec i s = .next (State.applied p (s.savePatron slot r).trigger) := by
  rw [State.savePatron_trigger_taking] at ht
  exact exec_posted hi hp hs hf ht (by simpa using State.free_room hs) (by simp)

/-- A command that takes a posted request whose length and port are right and whose fields fail a malformed check of its
rule: the refusal MALFORMED at its exchange (R170). -/
theorem exec_postedMalformed {code : ReqCode} {atOnce : Bool}
    (hi : exec i s = .next (commit e (State.takePosted code f atOnce) s)) (hr : (s.port f.port).resetLine = false)
    (hc : frameCheck f code = none) (hm : parsePosted code (frameKey f) f.payload = none) :
    exec i s = .next (s.replyRefused f.port .malformed) := by
  have ht : State.takePosted code f atOnce s = s.replyRefused f.port .malformed := by
    simp [State.takePosted, hr, hc, hm]
  exact exec_plain hi ht (by simp [State.replyRefused, State.reply]) (by simp [State.replyRefused, State.reply])

end

/-! ### Fields and their ranges -/

theorem patronOk_iff {n : Nat} : patronOk n = true ↔ n ≠ 0 ∧ n ≤ 9999999 := by
  rw [patronOk, Bool.and_eq_true, decide_eq_true_iff, decide_eq_true_iff, Nat.one_le_iff_ne_zero, Config.maxPatronNumber]

theorem routeOf_eq_none_iff {n : Nat} : routeOf n = none ↔ 31 < n := by
  unfold routeOf
  split
  · simpa using Nat.le_of_lt_succ ‹n < 32›
  · simpa using Nat.lt_of_succ_le (Nat.le_of_not_lt ‹¬n < 32›)

theorem routeOf_eq_some {n : Nat} {r : RouteNo} (h : routeOf n = some r) : r.val = n := by
  unfold routeOf at h
  split at h
  · cases h; rfl
  · cases h

theorem boolOf_eq_none_iff {n : Nat} : boolOf n = none ↔ 1 < n := by
  match n with
  | 0 => simp [boolOf]
  | 1 => simp [boolOf]
  | n + 2 => simp [boolOf]

theorem boolOf_eq_some {n : Nat} {b : Bool} (h : boolOf n = some b) : b = true ↔ n = 1 := by
  match n with
  | 0 => cases h; simp
  | 1 => cases h; simp
  | n + 2 => cases h

theorem frontOf_eq_none_iff {n : Nat} : frontOf n = none ↔ n ≠ 1 ∧ n ≠ 2 := by
  match n with
  | 0 => simp [frontOf]
  | 1 => simp [frontOf]
  | 2 => simp [frontOf]
  | n + 3 => simp [frontOf]

/-- The fields of an ENROL PATRON or AMEND PATRON are malformed by the route code or the hold, by no allowance (R26). -/
theorem parseReader_eq_none_iff {payload : List Byte} :
    parseReader payload = none ↔ 31 < natOfBytes (slice 1 1 payload) ∨ 1 < natOfBytes (slice 2 1 payload) := by
  rw [← routeOf_eq_none_iff, ← boolOf_eq_none_iff]
  unfold parseReader
  cases routeOf (natOfBytes (slice 1 1 payload)) <;> cases boolOf (natOfBytes (slice 2 1 payload)) <;> simp

/-- What the fields of an ENROL PATRON or AMEND PATRON say (R26). -/
theorem parseReader_eq_some {payload : List Byte} {allowance : Nat} {r : RouteNo} {hold : Bool}
    (h : parseReader payload = some (allowance, r, hold)) :
    allowance = min 6 (natOfBytes (slice 0 1 payload)) ∧ r.val = natOfBytes (slice 1 1 payload) ∧
      (hold = true ↔ natOfBytes (slice 2 1 payload) = 1) := by
  unfold parseReader at h
  split at h
  · rename_i hr hb
    cases h
    exact ⟨rfl, routeOf_eq_some hr, boolOf_eq_some hb⟩
  · cases h

end Sys2Proof.Machine
end

section
/-! CERTIFICATES. Patrons and their want lists: ENROL PATRON (R26), ADD WANT (R33) and DROP WANT (R34). -/

namespace Sys2Proof.Machine

/-! ### ENROL PATRON: its malformed check, and one equation per outcome of R26 -/

theorem parsePosted_enrolPatron_eq_none_iff {key : Nat} {payload : List Byte} :
    parsePosted .enrolPatron key payload = none ↔
      key = 0 ∨ 9999999 < key ∨ 31 < natOfBytes (slice 1 1 payload) ∨ 1 < natOfBytes (slice 2 1 payload) := by
  rw [← parseReader_eq_none_iff]
  by_cases hk : patronOk key = true
  · obtain ⟨hz, hmax⟩ := patronOk_iff.mp hk
    simp [parsePosted, hk, hz, hmax.not_gt]
  · have hout : key = 0 ∨ 9999999 < key := by rw [patronOk_iff] at hk; omega
    simp only [parsePosted, if_neg hk, true_iff]
    exact hout.elim .inl (.inr ∘ .inl)

theorem parsePosted_enrolPatron_eq_some {key number allowance : Nat} {payload : List Byte} {r : RouteNo} {hold : Bool}
    (h : parsePosted .enrolPatron key payload = some (.enrolPatron number allowance r hold)) :
    number = key ∧ parseReader payload = some (allowance, r, hold) := by
  simp only [parsePosted] at h
  split at h
  · obtain ⟨⟨a, r', b⟩, hread, heq⟩ := Option.map_eq_some_iff.mp h
    cases heq
    exact ⟨rfl, hread⟩
  · cases h

/-- An ENROL PATRON of its length on the CP passes the checks before its malformed check (R170). -/
theorem frameCheck_enrolPatron {f : Frame} (hp : f.port = .cp) (hl : f.payload.length = 3) :
    frameCheck f .enrolPatron = none := by
  simp [frameCheck, payloadLength, takenOn, hp, hl]

section
variable {number allowance : Nat} {r : RouteNo} {hold : Bool} {s : State}

theorem applyEnrolPatron_enrolled (h : (s.reader number).isSome = true) :
    applyEnrolPatron number allowance r hold s = s.refuse .cp .enrolPatron number .duplicate [] := by
  simp [applyEnrolPatron, h]

theorem applyEnrolPatron_tableFull (h : ¬ (s.reader number).isSome = true) (hfull : 16384 ≤ Table.freeKey 0 s.patrons) :
    applyEnrolPatron number allowance r hold s = s.refuse .cp .enrolPatron number .tableFull [] := by
  simp [applyEnrolPatron, h, Config.slots, hfull]

theorem applyEnrolPatron_slotFree (h : ¬ (s.reader number).isSome = true)
    (hfree : ¬ 16384 ≤ Table.freeKey 0 s.patrons) :
    applyEnrolPatron number allowance r hold s =
      (s.savePatron (Table.freeKey 0 s.patrons)
        { number := number, allowance := allowance, loansOut := 0, returnsOpen := 0, route := r, hold := hold,
          wants := [] }).endPosted .cp := by
  simp [applyEnrolPatron, h, Config.slots, hfree]

end

/-- Settles O7: the malformed check falls apart into those of the number, the route code and the hold; applied, the
reader's record and then the lowest free slot decide between the two refusals and the new record. -/
theorem enrolPatronApplied : Obligations.EnrolPatronApplied := by
  unfold Obligations.EnrolPatronApplied
  refine ⟨fun _ _ => parsePosted_enrolPatron_eq_none_iff, ?malformed, ?fields, ?applied⟩
  case malformed =>
    intro s f atOnce hp hr hl hbad
    have taken : exec (.enrolPatron f atOnce) s =
        .next (commit (.enrolPatron f atOnce) (State.takePosted .enrolPatron f atOnce) s) := rfl
    have refused := exec_postedMalformed taken (by rw [hp]; exact hr) (frameCheck_enrolPatron hp hl)
      (parsePosted_enrolPatron_eq_none_iff.mpr hbad)
    rwa [hp] at refused
  case fields =>
    intro key payload number allowance r hold h
    obtain ⟨hnumber, hread⟩ := parsePosted_enrolPatron_eq_some h
    exact ⟨hnumber, parseReader_eq_some hread⟩
  case applied =>
    intro s f number allowance r hold hp hs hf
    have taken : exec (.enrolPatron f true) s = .next (commit (.enrolPatron f true)
        (State.takePosted (PostedReq.enrolPatron number allowance r hold).code f true) s) := rfl
    have handed := State.taking_reader .cp (.enrolPatron number allowance r hold) s number
    have table := State.taking_patrons .cp (.enrolPatron number allowance r hold) s
    by_cases henrolled : (s.reader number).isSome = true
    · simp only [if_pos henrolled]
      exact exec_postedRefused taken hp hs hf (applyEnrolPatron_enrolled (by rwa [handed]))
    by_cases hfull : 16384 ≤ Table.freeKey 0 s.patrons
    · simp only [if_neg henrolled, if_pos hfull]
      exact exec_postedRefused taken hp hs hf (applyEnrolPatron_tableFull (by rwa [handed]) (by rwa [table]))
    · simp only [if_neg henrolled, if_neg hfull]
      have enrolled := applyEnrolPatron_slotFree (allowance := allowance) (r := r) (hold := hold)
        (by rwa [handed]) (by rwa [table])
      rw [table] at enrolled
      exact exec_postedSavePatron taken hp hs hf enrolled

/-! ### ADD WANT: its malformed check, and one equation per row of R33 -/

theorem parsePosted_addWant_eq_none_iff {key : Nat} {payload : List Byte} :
    parsePosted .addWant key payload = none ↔
      key = 0 ∨ 9999999 < key ∨ natOfBytes (slice 0 3 payload) = 0 ∨
        (natOfBytes (slice 3 1 payload) ≠ 1 ∧ natOfBytes (slice 3 1 payload) ≠ 2) := by
  rw [← frontOf_eq_none_iff]
  by_cases hk : patronOk key = true ∧ natOfBytes (slice 0 3 payload) ≠ 0
  · obtain ⟨hpatron, htitle⟩ := hk
    obtain ⟨hz, hmax⟩ := patronOk_iff.mp hpatron
    simp [parsePosted, hpatron, htitle, hz, hmax.not_gt]
  · have hout : key = 0 ∨ 9999999 < key ∨ natOfBytes (slice 0 3 payload) = 0 := by rw [patronOk_iff] at hk; omega
    simp only [parsePosted, if_neg hk, true_iff]
    tauto

section
variable {number title slot : Nat} {front : Bool} {r : Patron} {s : State}

theorem applyAddWant_notEnrolled (h : s.reader number = none) :
    applyAddWant number title front s = s.refuse .cp .addWant number .unknownPatron [] := by
  simp [applyAddWant, h]

theorem applyAddWant_notWantable (h : s.reader number = some (slot, r)) (hw : s.wantable title = false) :
    applyAddWant number title front s = s.refuse .cp .addWant number .unknownTitle [] := by
  simp [applyAddWant, h, hw]

theorem applyAddWant_onLoan {tag : Nat} (h : s.reader number = some (slot, r)) (hw : s.wantable title = true)
    (hl : s.liveLoanNaming number title = some tag) :
    applyAddWant number title front s = s.refuse .cp .addWant number .onLoan [tag] := by
  simp [applyAddWant, h, hw, hl]

theorem applyAddWant_duplicate (h : s.reader number = some (slot, r)) (hw : s.wantable title = true)
    (hl : s.liveLoanNaming number title = none) (hm : title ∈ r.wants) :
    applyAddWant number title false s =
      s.refuse .cp .addWant number .duplicate [r.wants.findIdx (fun x => x == title) + 1] := by
  simp [applyAddWant, h, hw, hl, hm]

theorem applyAddWant_alreadyFirst (h : s.reader number = some (slot, r)) (hw : s.wantable title = true)
    (hl : s.liveLoanNaming number title = none) (hm : title ∈ r.wants) (hfirst : r.wants.head? = some title) :
    applyAddWant number title true s = s.endPosted .cp := by
  simp [applyAddWant, h, hw, hl, hm, hfirst]

theorem applyAddWant_moved (h : s.reader number = some (slot, r)) (hw : s.wantable title = true)
    (hl : s.liveLoanNaming number title = none) (hm : title ∈ r.wants) (hfirst : r.wants.head? ≠ some title) :
    applyAddWant number title true s =
      (s.savePatron slot { r with wants := title :: r.wants.filter (fun x => x != title) }).trigger.endPosted .cp := by
  simp [applyAddWant, h, hw, hl, hm, hfirst, State.saveWants]

theorem applyAddWant_listFull (h : s.reader number = some (slot, r)) (hw : s.wantable title = true)
    (hl : s.liveLoanNaming number title = none) (hm : title ∉ r.wants) (hfull : 24 ≤ r.wants.length) :
    applyAddWant number title front s = s.refuse .cp .addWant number .listFull [] := by
  simp [applyAddWant, h, hw, hl, hm, Config.maxWants, hfull]

theorem applyAddWant_added (h : s.reader number = some (slot, r)) (hw : s.wantable title = true)
    (hl : s.liveLoanNaming number title = none) (hm : title ∉ r.wants) (hroom : r.wants.length < 24) :
    applyAddWant number title front s =
      (s.savePatron slot
        { r with wants := if front then title :: r.wants else r.wants ++ [title] }).trigger.endPosted .cp := by
  simp [applyAddWant, h, hw, hl, hm, Config.maxWants, hroom.not_ge, State.saveWants]

end

/-- Settles O10: the malformed check falls apart into those of the number, the title and the position; applied, each row
of R33 is its equation, on the state in which the free port has handed the request over. -/
theorem addWantApplied : Obligations.AddWantApplied := by
  unfold Obligations.AddWantApplied
  refine ⟨fun _ _ => parsePosted_addWant_eq_none_iff, ?applied⟩
  intro s f number title front hp hs hf
  have taken : exec (.addWant f true) s = .next (commit (.addWant f true)
      (State.takePosted (PostedReq.addWant number title front).code f true) s) := rfl
  have handed := State.taking_reader .cp (.addWant number title front) s number
  have titles := State.taking_wantable .cp (.addWant number title front) s title
  have loans := State.taking_liveLoanNaming .cp (.addWant number title front) s number title
  refine ⟨fun hr => exec_postedRefused taken hp hs hf (applyAddWant_notEnrolled (handed.trans hr)), fun slot p hr => ?_⟩
  replace hr := handed.trans hr
  refine ⟨fun hw => exec_postedRefused taken hp hs hf (applyAddWant_notWantable hr (titles.trans hw)),
    fun tag hw hl => exec_postedRefused taken hp hs hf (applyAddWant_onLoan hr (titles.trans hw) (loans.trans hl)),
    fun hw hl => ?_⟩
  replace hw := titles.trans hw
  replace hl := loans.trans hl
  refine ⟨?duplicate, ?first, ?moved, ?full, ?added⟩
  case duplicate =>
    rintro hm rfl
    exact exec_postedRefused taken hp hs hf (applyAddWant_duplicate hr hw hl hm)
  case first =>
    rintro hm rfl hfirst
    exact exec_postedNoEffect taken hp hs hf (applyAddWant_alreadyFirst hr hw hl hm hfirst)
  case moved =>
    rintro hm rfl hfirst
    exact exec_postedSavePatronTrigger taken hp hs hf (applyAddWant_moved hr hw hl hm hfirst)
  case full =>
    intro hm hfull
    exact exec_postedRefused taken hp hs hf (applyAddWant_listFull hr hw hl hm hfull)
  case added =>
    intro hm hroom
    exact exec_postedSavePatronTrigger taken hp hs hf (applyAddWant_added hr hw hl hm hroom)

/-! ### DROP WANT: one equation per row of R34 -/

section
variable {number title slot : Nat} {r : Patron} {s : State}

theorem applyDropWant_notEnrolled (h : s.reader number = none) :
    applyDropWant number title s = s.refuse .cp .dropWant number .unknownPatron [] := by
  simp [applyDropWant, h]

theorem applyDropWant_dropped (h : s.reader number = some (slot, r)) (hm : title ∈ r.wants) :
    applyDropWant number title s =
      (s.savePatron slot { r with wants := r.wants.filter (fun x => x != title) }).endPosted .cp := by
  simp [applyDropWant, h, hm, State.saveWants]

theorem applyDropWant_notFound (h : s.reader number = some (slot, r)) (hm : title ∉ r.wants) :
    applyDropWant number title s = s.refuse .cp .dropWant number .notFound [] := by
  simp [applyDropWant, h, hm]

end

/-- Settles O11: the reader's record and its want list decide between the two refusals and the shortened list. -/
theorem dropWantApplied : Obligations.DropWantApplied := by
  unfold Obligations.DropWantApplied
  intro s f number title hp hs hf
  have taken : exec (.dropWant f true) s =
      .next (commit (.dropWant f true) (State.takePosted (PostedReq.dropWant number title).code f true) s) := rfl
  have handed := State.taking_reader .cp (.dropWant number title) s number
  match hr : s.reader number with
  | none => exact exec_postedRefused taken hp hs hf (applyDropWant_notEnrolled (handed.trans hr))
  | some (slot, p) =>
    by_cases hm : title ∈ p.wants
    · simp only [if_pos hm]
      exact exec_postedSavePatron taken hp hs hf (applyDropWant_dropped (handed.trans hr) hm)
    · simp only [if_neg hm]
      exact exec_postedRefused taken hp hs hf (applyDropWant_notFound (handed.trans hr) hm)

end Sys2Proof.Machine
end

section
/-! SUPPORT. A posted request refused by the checks that come before its fields (R170), and one applied by a selection
trigger alone (R65). -/

namespace Sys2Proof.Machine

/-- A selection trigger raised by a request just handed over, whose application then ends. -/
theorem State.trigger_taking (p : Port) (q : PostedReq) (s : State) :
    (s.taking p q).trigger.endPosted p = State.applied p s.trigger := by cases p <;> rfl

section
variable {i e : Instr} {f : Frame} {p : Port} {q : PostedReq} {s : State}

/-- A command that takes a posted request on a free port, applied by a selection trigger that hands no unit (R65). -/
theorem exec_postedTrigger
    (hi : exec i s = .next (commit e (State.takePosted q.code f true) s)) (hp : f.port = p) (hs : s.free p)
    (hf : Spells f q) (ht : applyPosted p q (s.taking p q) = (s.taking p q).trigger.endPosted p) :
    exec i s = .next (State.applied p s.trigger) := by
  rw [State.trigger_taking] at ht
  exact exec_posted hi hp hs hf ht (by simpa using (State.free_room hs).le) (by simp)

/-- A command that takes a posted request whose frame fails a check of length or port: that check's refusal at its
exchange, in every mode (R170). -/
theorem exec_postedFrameRefused {code : ReqCode} {atOnce : Bool} {why : Reason}
    (hi : exec i s = .next (commit e (State.takePosted code f atOnce) s)) (hr : (s.port f.port).resetLine = false)
    (hc : frameCheck f code = some why) : exec i s = .next (s.replyRefused f.port why) := by
  have ht : State.takePosted code f atOnce s = s.replyRefused f.port why := by simp [State.takePosted, hr, hc]
  exact exec_plain hi ht (by simp [State.replyRefused, State.reply]) (by simp [State.replyRefused, State.reply])

end

end Sys2Proof.Machine
end

section
/-! CERTIFICATES. Selection: SELECT NOW (R66). -/

namespace Sys2Proof.Machine

/-- A SELECT NOW of its length on the FP passes the check of its length and fails that of its port (R170). -/
theorem frameCheck_selectNow_fp {f : Frame} (hp : f.port = .fp) (hl : f.payload = []) :
    frameCheck f .selectNow = some .wrongPort := by
  simp [frameCheck, payloadLength, takenOn, hp, hl]

/-- Settles O17: on the CP the application is one trigger and its end; on the FP the frame fails the check of its port,
before the mode is looked at. -/
theorem selectNowTriggers : Obligations.SelectNowTriggers := by
  unfold Obligations.SelectNowTriggers
  refine ⟨?triggers, ?wrongPort⟩
  case triggers =>
    intro s f hp hs hf
    have taken : exec (.selectNow f true) s =
        .next (commit (.selectNow f true) (State.takePosted PostedReq.selectNow.code f true) s) := rfl
    have applied : applyPosted .cp .selectNow (s.taking .cp .selectNow) =
        (s.taking .cp .selectNow).trigger.endPosted .cp := rfl
    exact exec_postedTrigger taken hp hs hf applied
  case wrongPort =>
    intro s f atOnce hp hr hl
    have taken : exec (.selectNow f atOnce) s =
        .next (commit (.selectNow f atOnce) (State.takePosted .selectNow f atOnce) s) := rfl
    have refused := exec_postedFrameRefused taken (by rw [hp]; exact hr) (frameCheck_selectNow_fp hp hl)
    rwa [hp] at refused

end Sys2Proof.Machine
end

section
/-! CERTIFICATES. The ports: PORT STATUS (R181). -/

namespace Sys2Proof.Machine

/-- A PORT STATUS with no payload passes the checks of length and port on either port, as it has no key (R170, R181). -/
theorem frameCheck_portStatus {f : Frame} (hl : f.payload = []) : frameCheck f .portStatus = none := by
  simp [frameCheck, payloadLength, takenOn, hl]

/-- An immediate request whose frame passes the checks, on a port whose reset line is high, is answered (R170, R182). -/
theorem State.immediate_taken {code : ReqCode} {f : Frame} {go : State → State} {s : State}
    (hr : (s.port f.port).resetLine = false) (hc : frameCheck f code = none) : s.immediate code f go = go s := by
  simp [State.immediate, hr, hc]

/-- A command that takes an immediate request which passes the checks and whose answer is a reply alone gives the state
with that reply at the port. -/
theorem exec_immediateReply {i e : Instr} {code : ReqCode} {f : Frame} {go : State → State} {r : Reply} {h : HandOver}
    {s : State} (hi : exec i s = .next (commit e (State.immediate code f go) s))
    (hr : (s.port f.port).resetLine = false) (hc : frameCheck f code = none) (hg : go s = s.reply f.port r h) :
    exec i s = .next (s.reply f.port r h) :=
  exec_plain hi ((State.immediate_taken hr hc).trans hg) (by simp [State.reply]) (by simp [State.reply])

/-- The completed entries of the delayed queue, which the model counts, are as many as the filter of R181 keeps. -/
theorem State.portStatus_completed (p : Port) (s : State) :
    (s.portStatus p).completed = ((s.port p).delayed.filter Delayed.completed).length :=
  List.countP_eq_length_filter

/-- Settles O32: the frame passes the checks, so the answer is the port's status as the model reads it, in which only the
count of the completed entries is spelled otherwise. -/
theorem portStatusAnswered : Obligations.PortStatusAnswered := by
  unfold Obligations.PortStatusAnswered
  intro s f hr hl
  have taken : exec (.portStatus f) s = .next (commit (.portStatus f) (takePortStatus f) s) := rfl
  have answered : exec (.portStatus f) s = .next (s.reply f.port (.doneStatus (s.portStatus f.port)) .none) :=
    exec_immediateReply taken hr (frameCheck_portStatus hl) rfl
  rw [answered, State.reply]
  simp only [← State.portStatus_completed]
  rfl

end Sys2Proof.Machine
end

section
/-! SUPPORT. The invariants that every step keeps: the canonical forms of the store and of the keyed tables, and the bounds
of the ports' queues. `Keeps s t` says that what holds of `s` holds of `t`; one lemma for each operation of the model says
that the operation goes on keeping it. -/

namespace Sys2Proof.Machine

/-- The invariants pass from one state to another. -/
structure Keeps (s t : State) : Prop where
  store : s.storeCanonical → t.storeCanonical
  tables : s.tablesSorted → t.tablesSorted
  ports : s.portsBounded → t.portsBounded

/-- The fields of State that the invariants are about. -/
def State.tracked (s : State) :=
  (s.store, s.titles, s.patrons, s.loans, s.settings, s.mem, s.cp, s.fp)

/-! ### Port Units within their bounds -/

section
variable {u : PortUnit}

/-- No bound is about the exchange, the reset line or how far the head's application has come. -/
theorem PortUnit.bounded.frame (h : u.bounded) {v : PortUnit}
    (same : (v.posted, v.delayed, v.notices) = (u.posted, u.delayed, u.notices)) : v.bounded := by
  simp only [Prod.mk.injEq] at same
  obtain ⟨hp, hd, hn⟩ := same
  unfold PortUnit.bounded
  rwa [hp, hd, hn]

theorem PortUnit.bounded.append (h : u.bounded) (n : Notice) : (u.append n).bounded := by
  obtain ⟨hp, hd, hdist, hn⟩ := h
  unfold PortUnit.append
  split
  · rename_i room
    exact ⟨hp, hd, hdist, by simpa [Config.maxNotices] using room⟩
  · exact ⟨hp, hd, hdist, hn⟩

theorem PortUnit.bounded.handHead (h : u.bounded) : u.handHead.bounded := by
  unfold PortUnit.handHead
  split
  · exact h
  · exact h.frame rfl

/-- Entries that keep their codes and keys stay distinct (R174). -/
theorem distinctEntries.map {l : List Delayed} (h : distinctEntries l) {f : Delayed → Delayed}
    (hc : ∀ d, (f d).code = d.code) (hk : ∀ d, (f d).key = d.key) : distinctEntries (l.map f) := by
  unfold distinctEntries at h ⊢
  simpa [List.pairwise_map, hc, hk] using h

theorem PortUnit.bounded.endApplication (h : u.bounded) : u.endApplication.bounded := by
  obtain ⟨hp, hd, hdist, hn⟩ := h
  refine ⟨?_, by simpa [PortUnit.endApplication] using hd, ?_, hn⟩
  · simp only [PortUnit.endApplication, List.length_tail]
    omega
  · exact hdist.map (fun _ => rfl) (fun _ => rfl)

theorem PortUnit.bounded.freeEntry (h : u.bounded) (code : ReqCode) (key : Nat) : (u.freeEntry code key).bounded := by
  obtain ⟨hp, hd, hdist, hn⟩ := h
  exact ⟨hp, (List.length_filter_le ..).trans hd, List.Pairwise.filter _ hdist, hn⟩

theorem PortUnit.bounded.handOver (h : u.bounded) (x : HandOver) : (u.handOver x).bounded := by
  cases x with
  | none => exact h
  | notice given =>
    obtain ⟨hp, hd, hdist, hn⟩ := h
    refine ⟨hp, hd, hdist, ?_⟩
    simp only [PortUnit.handOver]
    split
    · exact (by simp : u.notices.tail.length ≤ u.notices.length).trans hn
    · exact hn
  | entry code key =>
    simp only [PortUnit.handOver]
    split
    · exact h.freeEntry code key
    · exact h

theorem PortUnit.bounded_reset (u : PortUnit) : u.reset.bounded := by
  refine ⟨?_, by simp [PortUnit.reset], List.Pairwise.nil, by simp [PortUnit.reset]⟩
  simp only [PortUnit.reset]
  split
  · simp only [List.length_take]; omega
  · simp

theorem PortUnit.bounded_empty (resetLine : Bool) : (PortUnit.empty resetLine).bounded :=
  ⟨by simp [PortUnit.empty], by simp [PortUnit.empty], List.Pairwise.nil, by simp [PortUnit.empty]⟩

/-- A request joins a posted queue with room (R171). -/
theorem PortUnit.bounded.post (h : u.bounded) (room : u.posted.length < Config.maxPosted) (q : PostedReq) :
    { u with posted := u.posted ++ [q] }.bounded := by
  obtain ⟨-, hd, hdist, hn⟩ := h
  exact ⟨by simpa [Config.maxPosted] using room, hd, hdist, hn⟩

/-- An entry of a code and key that none has joins a delayed queue with room (R174). -/
theorem PortUnit.bounded.delay (h : u.bounded) {code : ReqCode} {key : Nat}
    (new : u.delayed.find? (fun d => d.is code key) = none) (room : u.delayed.length < Config.maxDelayed)
    (x : Condition) (mark : Nat) : { u with delayed := u.delayed ++ [Delayed.mk code key x mark] }.bounded := by
  obtain ⟨hp, -, hdist, hn⟩ := h
  refine ⟨hp, by simpa [Config.maxDelayed] using room, List.pairwise_append.mpr ⟨hdist, List.pairwise_singleton .., ?_⟩, hn⟩
  intro d hd e he
  obtain rfl := List.mem_singleton.mp he
  simpa [Delayed.is] using List.find?_eq_none.mp new d hd

theorem startEntry_codes (answer : ReqCode → Nat → QueryResult) (l : List Delayed) :
    (startEntry answer l).map (fun d => (d.code, d.key)) = l.map (fun d => (d.code, d.key)) := by
  induction l with
  | nil => rfl
  | cons d l ih =>
    unfold startEntry
    split
    · simp only [List.map_cons]
      split <;> rfl
    · simp [ih]
    · simp [ih]

theorem distinctEntries_iff (l : List Delayed) :
    distinctEntries l ↔ (l.map (fun d => (d.code, d.key))).Pairwise (· ≠ ·) := by
  simp [distinctEntries, List.pairwise_map]

theorem PortUnit.bounded.startEntry (h : u.bounded) (answer : ReqCode → Nat → QueryResult) :
    { u with delayed := Machine.startEntry answer u.delayed }.bounded := by
  obtain ⟨hp, hd, hdist, hn⟩ := h
  have codes := startEntry_codes answer u.delayed
  have length := congrArg List.length codes
  simp only [List.length_map] at length
  refine ⟨hp, length.trans_le hd, ?_, hn⟩
  rw [distinctEntries_iff, codes, ← distinctEntries_iff]
  exact hdist

theorem Delayed.finish_code (discard : Nat) (d : Delayed) : (d.finish discard).code = d.code := by
  unfold Delayed.finish; split <;> rfl

theorem Delayed.finish_key (discard : Nat) (d : Delayed) : (d.finish discard).key = d.key := by
  unfold Delayed.finish; split <;> rfl

theorem PortUnit.bounded.finish (h : u.bounded) (code : ReqCode) (key discard : Nat) :
    { u with delayed := u.delayed.map (fun d : Delayed => if d.is code key then d.finish discard else d) }.bounded := by
  obtain ⟨hp, hd, hdist, hn⟩ := h
  refine ⟨hp, by simpa using hd, hdist.map ?_ ?_, hn⟩
  · intro d; split
    · exact d.finish_code discard
    · rfl
  · intro d; split
    · exact d.finish_key discard
    · rfl

end

/-! ### The records of State -/

theorem sorted_writeSetting {n v : Nat} {t : Table Nat} (h : Table.sorted t = true) :
    Table.sorted (writeSetting n v t) = true := by
  unfold writeSetting; split
  · exact Table.sorted_erase _ h
  · exact Table.sorted_set _ _ h

namespace Keeps

variable {s t : State}

theorem refl (s : State) : Keeps s s := ⟨id, id, id⟩

theorem trans {u : State} (h : Keeps s t) (k : Keeps t u) : Keeps s u :=
  ⟨k.store ∘ h.store, k.tables ∘ h.tables, k.ports ∘ h.ports⟩

/-- No invariant is about the other fields of State. -/
theorem frame (h : Keeps s t) {u : State} (same : u.tracked = t.tracked) : Keeps s u := by
  simp only [State.tracked, Prod.mk.injEq] at same
  obtain ⟨store, titles, patrons, loans, settings, mem, cp, fp⟩ := same
  refine h.trans ⟨?_, ?_, ?_⟩
  · unfold State.storeCanonical; rw [store]; exact id
  · unfold State.tablesSorted; rw [titles, patrons, loans, settings, mem]; exact id
  · unfold State.portsBounded; rw [cp, fp]; exact id

theorem ite (h : Keeps s t) {u : State} (k : Keeps s u) {c : Prop} [Decidable c] : Keeps s (if c then t else u) := by
  by_cases hc : c
  · rwa [if_pos hc]
  · rwa [if_neg hc]

theorem setPort (h : Keeps s t) {p : Port} {u : PortUnit} (hu : (t.port p).bounded → u.bounded) :
    Keeps s (t.setPort p u) := by
  refine h.trans ⟨?_, ?_, ?_⟩
  · simp [State.storeCanonical]
  · simp [State.tablesSorted]
  · rintro ⟨hcp, hfp⟩
    cases p with
    | cp => exact ⟨hu hcp, hfp⟩
    | fp => exact ⟨hcp, hu hfp⟩

theorem setChan (h : Keeps s t) {c : Chan} {x : Channel} : Keeps s (t.setChan c x) := by
  cases c <;> exact h.frame (by rfl)

theorem setBay (h : Keeps s t) {b : BayNo} {x : Bay} : Keeps s (t.setBay b x) := h.frame (by rfl)

theorem setBin (h : Keeps s t) {r : RouteNo} {x : Bin} : Keeps s (t.setBin r x) := h.frame (by rfl)

theorem setStation (h : Keeps s t) {a : Nat} {x : StationState} : Keeps s (t.setStation a x) := h.ite (h.frame (by rfl))

/-- A new title table in rising order. -/
theorem setTitles (h : Keeps s t) {ts : Table Title} (sorted : Table.sorted t.titles = true → Table.sorted ts = true) :
    Keeps s { t with titles := ts } :=
  h.trans ⟨id, fun ⟨h1, hrest⟩ => ⟨sorted h1, hrest⟩, id⟩

theorem setPatrons (h : Keeps s t) {ps : Table Patron}
    (sorted : Table.sorted t.patrons = true → Table.sorted ps = true) : Keeps s { t with patrons := ps } :=
  h.trans ⟨id, fun ⟨h1, h2, hrest⟩ => ⟨h1, sorted h2, hrest⟩, id⟩

theorem setLoans (h : Keeps s t) {ls : Table Loan} (sorted : Table.sorted t.loans = true → Table.sorted ls = true) :
    Keeps s { t with loans := ls } :=
  h.trans ⟨id, fun ⟨h1, h2, h3, hrest⟩ => ⟨h1, h2, sorted h3, hrest⟩, id⟩

theorem setSettings (h : Keeps s t) {ps : Table Nat}
    (sorted : Table.sorted t.settings = true → Table.sorted ps = true) : Keeps s { t with settings := ps } :=
  h.trans ⟨id, fun ⟨h1, h2, h3, h4, hrest⟩ => ⟨h1, h2, h3, sorted h4, hrest⟩, id⟩

theorem putTitle (h : Keeps s t) {n : Nat} {x : Title} : Keeps s (t.putTitle n x) := h.setTitles (Table.sorted_set _ _)

theorem putLoan (h : Keeps s t) {tag : Nat} {l : Loan} : Keeps s (t.putLoan tag l) := h.setLoans (Table.sorted_set _ _)

theorem putPatron (h : Keeps s t) {slot : Nat} {p : Patron} : Keeps s (t.putPatron slot p) :=
  h.setPatrons (Table.sorted_set _ _)

theorem expire (h : Keeps s t) {limit : Nat} : Keeps s (t.expire limit) := h.frame (by rfl)

theorem tick (h : Keeps s t) : Keeps s t.tick := h.frame (by rfl)

/-! ### Shared operations -/

theorem hand (h : Keeps s t) {u : WriteUnit} : Keeps s (t.hand u) := h.frame (by rfl)

theorem saveTitle (h : Keeps s t) {n : Nat} {x : Title} : Keeps s (t.saveTitle n x) := h.putTitle.hand

theorem dropTitle (h : Keeps s t) {n : Nat} : Keeps s (t.dropTitle n) := (h.setTitles (Table.sorted_erase _)).hand

theorem savePatron (h : Keeps s t) {slot : Nat} {p : Patron} : Keeps s (t.savePatron slot p) := h.putPatron.hand

theorem saveLoan (h : Keeps s t) {tag : Nat} {l : Loan} : Keeps s (t.saveLoan tag l) := h.putLoan.hand

theorem saveBin (h : Keeps s t) {r : RouteNo} {x : Bin} : Keeps s (t.saveBin r x) := h.setBin.hand

theorem notify (h : Keeps s t) {p : Port} {n : Notice} : Keeps s (t.notify p n) := h.setPort (·.append n)

theorem notifyBoth (h : Keeps s t) {n : Notice} : Keeps s (t.notifyBoth n) := h.notify.notify

theorem trigger (h : Keeps s t) : Keeps s t.trigger := h.frame (by rfl)

theorem endPosted (h : Keeps s t) {p : Port} : Keeps s (t.endPosted p) := h.setPort (·.endApplication)

theorem notifyRefused (h : Keeps s t) {p : Port} {code : ReqCode} {key : Nat} {why : Reason} {values : List Nat} :
    Keeps s (t.notifyRefused p code key why values) := h.notify

theorem refuse (h : Keeps s t) {p : Port} {code : ReqCode} {key : Nat} {why : Reason} {values : List Nat} :
    Keeps s (t.refuse p code key why values) := h.notifyRefused.endPosted

theorem lowerLoansOut (h : Keeps s t) {number : Nat} : Keeps s (t.lowerLoansOut number) := by
  unfold State.lowerLoansOut
  rcases t.reader number with _ | ⟨slot, p⟩
  · exact h
  · exact h.putPatron.trigger

theorem lowerReturnsOpen (h : Keeps s t) {number : Nat} : Keeps s (t.lowerReturnsOpen number) := by
  unfold State.lowerReturnsOpen
  rcases t.reader number with _ | ⟨slot, p⟩
  · exact h
  · exact h.putPatron

theorem closeLoan (h : Keeps s t) {tag : Nat} {u : WriteUnit} : Keeps s (t.closeLoan tag u) :=
  (h.setLoans (Table.sorted_erase tag)).hand.trigger.ite (h.setLoans (Table.sorted_erase tag)).hand

theorem leaveQueue (h : Keeps s t) {tag : Nat} : Keeps s (t.leaveQueue tag) := by
  rw [State.leaveQueue_eq]; exact h.frame (by rfl)

theorem updateJob (h : Keeps s t) {tag : Nat} {f : Job → Job} : Keeps s (t.updateJob tag f) := h.frame (by rfl)

theorem setCopyQueue (h : Keeps s t) {q : List Job} : Keeps s { t with copyQueue := q } := h.frame (by rfl)

theorem voidHeld (h : Keeps s t) {b : BayNo} : Keeps s (t.voidHeld b) := h.frame (by rfl)

theorem hold (h : Keeps s t) {e : Instr} : Keeps s (t.hold e) := h.frame (by rfl)

theorem lampAfter (h : Keeps s t) {before : State} : Keeps s (lampAfter before t) := by
  rw [lampAfter_eq]; exact h.frame (by rfl)

/-- An event held back leaves its records alone, one taken brings its own effect (R188). -/
theorem commit {e : Instr} {f : State → State} (h : Keeps s t) (hf : ∀ {u}, Keeps s u → Keeps s (f u)) :
    Keeps s (commit e f t) := by
  rcases commit_cases e f t with hc | hc <;> rw [hc]
  · exact h.hold
  · exact (hf h).lampAfter

/-! ### The title store -/

theorem freeRuns (h : Keeps s t) {c : CartTitle} : Keeps s (t.freeRuns c) := h.frame (by rfl)

theorem give (h : Keeps s t) {r : Requester} : Keeps s (t.give r) := by
  cases r <;> exact h.frame (by rfl)

theorem discardStaged (h : Keeps s t) : Keeps s t.discardStaged := (h.frame (by rfl)).endPosted

theorem arbitrate (h : Keeps s t) : Keeps s t.arbitrate := by
  have next : Keeps s (match t.discardStaged.nextRequester with
      | none => t.discardStaged
      | some r => t.discardStaged.give r) := by
    cases t.discardStaged.nextRequester with
    | none => exact h.discardStaged
    | some r => exact h.discardStaged.give
  have granted : Keeps s (match t.nextRequester with
      | none => t
      | some .staging =>
        match t.stagingWriter with
        | none => t
        | some b =>
          if t.isStaging b.title then t.give .staging
          else
            match t.discardStaged.nextRequester with
            | none => t.discardStaged
            | some r => t.discardStaged.give r
      | some r => t.give r) := by
    rcases t.nextRequester with _ | _ | _ | _
    · exact h
    · cases t.stagingWriter with
      | none => exact h
      | some b => exact h.give.ite next
    · exact h.give
    · exact h.give
  exact h.ite granted

theorem endTransfer (h : Keeps s t) : Keeps s t.endTransfer := by
  unfold State.endTransfer
  rcases t.grant with _ | _ | _ | _
  · exact h
  · cases t.stagingWriter with
    | none => exact h.frame (by rfl)
    | some b => exact h.trans ⟨(writeStore_wf · _ _), id, id⟩
  · exact h.frame (by rfl)
  · exact h.frame (by rfl)

theorem endTransferOf (h : Keeps s t) {r : Requester} : Keeps s (t.endTransferOf r) := h.endTransfer.arbitrate.ite h

/-! ### Titles -/

theorem settleUnpinned (h : Keeps s t) {n : Nat} {w : Bool} {c : CartTitle} : Keeps s (t.settleUnpinned n w c) := by
  unfold State.settleUnpinned
  cases c.state with
  | retiring => exact h.freeRuns.dropTitle
  | damaged => exact h.freeRuns.saveTitle
  | absent | staging | resident => exact h

theorem unpin (h : Keeps s t) {n : Nat} : Keeps s (t.unpin n) := by
  unfold State.unpin
  rcases t.title n with _ | ⟨w, c | v⟩
  · exact h
  · exact h.putTitle.settleUnpinned.ite h.putTitle
  · exact h

/-- What every turn of a loop keeps, the loop keeps. -/
theorem foldl {α : Type} {f : State → α → State} (hf : ∀ {u a}, Keeps s u → Keeps s (f u a)) (l : List α)
    (h : Keeps s t) : Keeps s (l.foldl f t) := by
  induction l generalizing t with
  | nil => exact h
  | cons a l ih => exact ih (hf h)

theorem unpinAll (h : Keeps s t) {es : List PlanEntry} : Keeps s (t.unpinAll es) := foldl (·.unpin) es h

theorem pin (h : Keeps s t) {n : Nat} : Keeps s (t.pin n) := by
  unfold State.pin
  rcases t.title n with _ | ⟨w, c | v⟩
  · exact h
  · exact h.putTitle
  · exact h

theorem damageReport (h : Keeps s t) {n : Nat} {found : ImageSum} : Keeps s (t.damageReport n found) := by
  unfold State.damageReport
  rcases t.title n with _ | ⟨w, c | v⟩
  · exact h
  · simp only
    cases c.state with
    | resident => exact h.saveTitle.notify.settleUnpinned.ite h.saveTitle.notify
    | retiring => exact h.notify.settleUnpinned.ite h.notify
    | damaged => exact h.settleUnpinned.ite h
    | absent | staging => exact h
  · exact h

theorem applyDefineTitle (h : Keeps s t) {n : Nat} {d : TitleDef} : Keeps s (applyDefineTitle n d t) :=
  h.refuse.ite (h.refuse.ite h.saveTitle.endPosted)

theorem evict (h : Keeps s t) {n : Nat} {w : Bool} {c : CartTitle} : Keeps s (t.evict n w c) :=
  h.freeRuns.saveTitle.notify

theorem allocateEvicting (h : Keeps s t) (k n : Nat) : Keeps s (allocateEvicting k n t).1 := by
  induction k generalizing t with
  | zero => exact h
  | succ k ih =>
    unfold Machine.allocateEvicting
    rcases allocate n t.freeMap with _ | ⟨r1, r2⟩
    · rcases victim t.titles with _ | ⟨v, w, c⟩
      · exact h
      · by_cases room : t.writeQueue.length < Config.maxUnits
        · simpa only [if_pos room] using ih h.evict
        · simpa only [if_neg room] using h
    · by_cases room : t.writeQueue.length < Config.maxUnits
      · simpa only [if_pos room] using h
      · simpa only [if_neg room] using h

theorem applyStageBegin (h : Keeps s t) {n : Nat} : Keeps s (applyStageBegin n t) := by
  unfold Machine.applyStageBegin
  rcases t.title n with _ | ⟨w, c | v⟩
  · exact h.refuse
  · simp only
    cases c.state with
    | absent =>
      have evicted := h.allocateEvicting (t.titles.length + 1) (extentsFor c.length)
      rcases he : Machine.allocateEvicting (t.titles.length + 1) (extentsFor c.length) t with ⟨u, ⟨r1, r2⟩ | _ | _⟩ <;>
        rw [he] at evicted
      · exact (evicted.frame (by rfl)).saveTitle.endPosted
      · exact evicted.refuse
      · exact evicted.hold
    | staging | resident | retiring | damaged => exact h.refuse
  · exact h.refuse

theorem applyStageBlock (h : Keeps s t) {n index : Nat} {bytes : List Byte} :
    Keeps s (applyStageBlock n index bytes t) := by
  unfold Machine.applyStageBlock
  rcases t.title n with _ | ⟨w, c | v⟩
  · exact h.refuse
  · exact h.refuse.ite (h.refuse.ite (h.putTitle.frame (by rfl)).arbitrate)
  · exact h.refuse

theorem finishStaging (h : Keeps s t) {n : Nat} {w : Bool} {c : CartTitle} : Keeps s (t.finishStaging n w c) :=
  h.saveTitle.notify.trigger.ite h.freeRuns.saveTitle.notify

theorem takeStoreTransferComplete (h : Keeps s t) : Keeps s (takeStoreTransferComplete t) :=
  h.endTransfer.arbitrate.ite h

theorem takeStagingWriteComplete (h : Keeps s t) : Keeps s (takeStagingWriteComplete t) := by
  unfold Machine.takeStagingWriteComplete
  cases t.stagingWriter with
  | none => exact h
  | some b =>
    have ended : Keeps s { t.endTransferOf .staging with stagingWriter := none } := h.endTransferOf.frame (by rfl)
    refine ite (endPosted ?_) h
    simp only
    rcases State.title { t.endTransferOf .staging with stagingWriter := none } b.title with _ | ⟨w, c | v⟩
    · exact ended
    · exact ended.finishStaging.ite ended
    · exact ended

theorem takeStagingIdleExpiry (h : Keeps s t) {n : Nat} : Keeps s (takeStagingIdleExpiry n t) := by
  unfold Machine.takeStagingIdleExpiry
  rcases t.title n with _ | ⟨w, c | v⟩
  · exact h
  · simp only
    cases c.idleTimer with
    | none => exact h
    | some limit => exact h.expire.freeRuns.saveTitle.notify
  · exact h

theorem applyRetireTitle (h : Keeps s t) {n : Nat} : Keeps s (applyRetireTitle n t) := by
  unfold Machine.applyRetireTitle
  cases t.title n with
  | none => exact h.refuse
  | some x => exact h.refuse.ite (h.putTitle.frame (by rfl))

theorem retirementOutcome (h : Keeps s t) {n : Nat} : Keeps s (t.retirementOutcome n) := by
  unfold State.retirementOutcome
  rcases t.title n with _ | ⟨w, c | v⟩
  · exact h.endPosted
  · simp only
    cases c.state with
    | absent | staging => exact h.freeRuns.dropTitle.endPosted
    | resident => exact h.freeRuns.dropTitle.endPosted.ite h.saveTitle.endPosted
    | damaged => exact h.saveTitle.endPosted
    | retiring => exact h.endPosted
  · exact h.putTitle.refuse.ite h.dropTitle.endPosted

theorem applyAddCopies (h : Keeps s t) {n count : Nat} : Keeps s (applyAddCopies n count t) := by
  unfold Machine.applyAddCopies
  rcases t.title n with _ | ⟨w, c | v⟩
  · exact h.refuse
  · exact h.refuse
  · exact h.refuse.ite h.saveTitle.trigger.endPosted

theorem applyRemoveCopy (h : Keeps s t) {n : Nat} : Keeps s (applyRemoveCopy n t) := by
  unfold Machine.applyRemoveCopy
  rcases t.title n with _ | ⟨w, c | v⟩
  · exact h.refuse
  · exact h.refuse
  · exact h.refuse.ite (h.refuse.ite h.saveTitle.endPosted)

theorem changeCopies (h : Keeps s t) {n : Nat} {f : VolTitle → VolTitle} : Keeps s (t.changeCopies n f).1 := by
  unfold State.changeCopies
  rcases t.title n with _ | ⟨w, c | v⟩
  · exact h
  · exact h
  · exact h.putTitle

/-! ### Patrons -/

theorem applyEnrolPatron (h : Keeps s t) {number allowance : Nat} {r : RouteNo} {hold : Bool} :
    Keeps s (applyEnrolPatron number allowance r hold t) := h.refuse.ite (h.refuse.ite h.savePatron.endPosted)

theorem applyAmendPatron (h : Keeps s t) {number allowance : Nat} {r : RouteNo} {hold : Bool} :
    Keeps s (applyAmendPatron number allowance r hold t) := by
  unfold Machine.applyAmendPatron
  rcases t.reader number with _ | ⟨slot, p⟩
  · exact h.refuse
  · exact ((h.ite h.savePatron).trigger.ite (h.ite h.savePatron)).endPosted

theorem applyRemovePatron (h : Keeps s t) {number : Nat} : Keeps s (applyRemovePatron number t) := by
  unfold Machine.applyRemovePatron
  rcases t.reader number with _ | ⟨slot, p⟩
  · exact h.refuse
  · exact h.refuse.ite (h.setPatrons (Table.sorted_erase _)).hand.endPosted

theorem applyAddWant (h : Keeps s t) {number title : Nat} {front : Bool} :
    Keeps s (applyAddWant number title front t) := by
  unfold Machine.applyAddWant
  rcases t.reader number with _ | ⟨slot, p⟩
  · exact h.refuse
  · refine h.refuse.ite ?_
    cases t.liveLoanNaming number title with
    | some tag => exact h.refuse
    | none =>
      exact ((h.endPosted.ite h.savePatron.trigger.endPosted).ite h.refuse).ite
        (h.refuse.ite h.savePatron.trigger.endPosted)

theorem applyDropWant (h : Keeps s t) {number title : Nat} : Keeps s (applyDropWant number title t) := by
  unfold Machine.applyDropWant
  rcases t.reader number with _ | ⟨slot, p⟩
  · exact h.refuse
  · exact h.savePatron.endPosted.ite h.refuse

theorem takeWithdrawalWalkStep (h : Keeps s t) : Keeps s (takeWithdrawalWalkStep t) := by
  unfold Machine.takeWithdrawalWalkStep
  cases t.walk with
  | none => exact h
  | some w =>
    simp only
    rcases t.patrons.find? _ with _ | ⟨slot, p⟩
    · exact (h.frame (by rfl)).retirementOutcome
    · exact h.savePatron.frame (by rfl)

theorem restore (h : Keeps s t) {r : Restoration} : Keeps s (t.restore r) := by
  unfold State.restore
  rcases t.reader r.patron with _ | ⟨slot, p⟩
  · exact h
  · have put {p p' : Patron} {c : Prop} [Decidable c] :
        Keeps s (if c then t.putPatron slot p' else t.savePatron slot p) := h.putPatron.ite h.savePatron
    exact put.trigger.ite put.trigger.notify

theorem takeRestoration (h : Keeps s t) {pick : Nat} : Keeps s (takeRestoration pick t) := by
  unfold Machine.takeRestoration
  rcases pickFrom pick t.restorations with _ | ⟨r, rest⟩
  · exact h
  · exact (h.frame (by rfl)).restore

theorem takeLoansOutDecrease (h : Keeps s t) {pick : Nat} : Keeps s (takeLoansOutDecrease pick t) := by
  unfold Machine.takeLoansOutDecrease
  rcases pickFrom pick t.decreases with _ | ⟨number, rest⟩
  · exact h
  · exact (h.frame (by rfl)).lowerLoansOut

/-! ### Bays, copy queue and channels -/

theorem giveBay (h : Keeps s t) {tag : Nat} {b : BayNo} : Keeps s (t.giveBay tag b) := by
  unfold State.giveBay
  cases t.loan tag with
  | none => exact h
  | some l => exact h.setBay.saveLoan.updateJob

theorem seekBay (h : Keeps s t) {tag : Nat} : Keeps s (t.seekBay tag) := by
  unfold State.seekBay
  cases t.loan tag with
  | none => exact h
  | some l =>
    simp only
    cases t.firstFit l.need with
    | some b => exact h.giveBay
    | none => exact h.updateJob

theorem becomeBlank (h : Keeps s t) {b : BayNo} : Keeps s (t.becomeBlank b) := by
  unfold State.becomeBlank
  simp only
  cases t.copyQueue.find? _ with
  | some j => exact h.setBay.giveBay
  | none => exact h.setBay.trigger

theorem sendErase (h : Keeps s t) {b : BayNo} : Keeps s (t.sendErase b) := h.setBay.ite h

theorem sendIdentity (h : Keeps s t) {b : BayNo} : Keeps s (t.sendIdentity b) := h.setBay.ite h

theorem lineFreed (h : Keeps s t) {b : BayNo} : Keeps s (t.lineFreed b) := h.sendErase.sendIdentity

theorem startErase (h : Keeps s t) {b : BayNo} : Keeps s (t.startErase b) := h.setBay.sendErase

theorem rejectBay (h : Keeps s t) {b : BayNo} {why : RejectReason} : Keeps s (t.rejectBay b why) := h.setBay.notify

theorem failLoan (h : Keeps s t) {tag : Nat} {why : Reason} {title : Nat} : Keeps s (t.failLoan tag why title) := by
  unfold State.failLoan
  cases t.loan tag with
  | none => exact h
  | some l =>
    refine ite ?_ h
    cases l.bay with
    | some b => exact (h.closeLoan.frame (by rfl)).leaveQueue.unpinAll.startErase.notifyBoth
    | none => exact (h.closeLoan.frame (by rfl)).leaveQueue.unpinAll.notifyBoth

theorem dueCommand (h : Keeps s t) {c : Chan} {cmd : CartCommand} {limit : Nat} : Keeps s (t.dueCommand c cmd limit) := by
  unfold State.dueCommand
  simp only
  cases (t.chan c).bay with
  | none => exact h
  | some b => exact h.setBay.setChan.ite h.setChan

theorem dueStalled (h : Keeps s t) {c : Chan} {cmd : CartCommand} : Keeps s (t.dueStalled c cmd) := h.dueCommand

theorem release (h : Keeps s t) {c : Chan} : Keeps s (t.release c) := by
  have job {u : State} (freed : Keeps s u) : Keeps s (match (t.chan c).tag with
      | none => u
      | some tag =>
        match u.job tag with
        | none => u
        | some j =>
          if j.holder = some c then
            let u := u.updateJob tag (fun j => { j with holder := none })
            if j.bay.isNone then u.seekBay tag else u
          else u) := by
    cases (t.chan c).tag with
    | none => exact freed
    | some tag =>
      simp only
      cases u.job tag with
      | none => exact freed
      | some j => exact (freed.updateJob.seekBay.ite freed.updateJob).ite freed
  refine job ?_
  cases (t.chan c).bay with
  | some b => exact h.setChan.lineFreed
  | none => exact h.setChan

theorem channelFails (h : Keeps s t) {c : Chan} {tag : Nat} {why : Reason} {title : Nat} :
    Keeps s (t.channelFails c tag why title) := h.failLoan.release

theorem titleStart (h : Keeps s t) {c : Chan} : Keeps s (t.titleStart c) := by
  unfold State.titleStart
  simp only
  rcases (t.chan c).tag, (t.chan c).entry with ⟨_ | tag, _ | e⟩
  · exact h
  · exact h
  · exact h
  · simp only
    cases t.cart e.title with
    | some k => exact h.setChan.dueStalled.ite h.channelFails
    | none => exact h.channelFails

theorem takeJob (h : Keeps s t) {c : Chan} {j : Job} {b : BayNo} {l : Loan} : Keeps s (t.takeJob c j b l) :=
  h.updateJob.saveLoan.setBay.setChan.titleStart

theorem handOverUpTo (n : Nat) (h : Keeps s t) : Keeps s (handOverUpTo n t) := by
  induction n generalizing t with
  | zero => exact h
  | succ n ih =>
    unfold Machine.handOverUpTo
    rcases t.idleChannel, t.takeable with ⟨_ | c, _ | ⟨j, b, l⟩⟩
    · exact h
    · exact h
    · exact h
    · exact (ih h.takeJob).ite h

theorem handOver (h : Keeps s t) : Keeps s t.handOver := h.handOverUpTo _

theorem tellStop (h : Keeps s t) {c : Chan} {cause : StopCause} : Keeps s (t.tellStop c cause) := by
  refine ite h ?_
  cases (t.chan c).activity with
  | none | storeRequest => exact h.setChan.release
  | commandDue cmd limit => exact h.setChan.ite h.setChan.release
  | storeRead transferred => exact h.setChan
  | commandSent cmd limit => exact h.setChan.release.ite h.setChan

/-! ### Loans -/

theorem notifyClosed (h : Keeps s t) {tag : Nat} {why : Reason} {values : List Nat} :
    Keeps s (t.notifyClosed tag why values) := h.notify

theorem applyPicked (h : Keeps s t) {tag : Nat} : Keeps s (applyPicked tag t) := by
  unfold Machine.applyPicked
  cases t.loan tag with
  | none => exact h.refuse
  | some l => exact h.saveLoan.endPosted.ite h.refuse

theorem applyPickFailed (h : Keeps s t) {tag : Nat} : Keeps s (applyPickFailed tag t) := by
  unfold Machine.applyPickFailed
  cases t.loan tag with
  | none => exact h.refuse
  | some l => exact (h.changeCopies.closeLoan.frame (by rfl)).notifyClosed.endPosted.ite h.refuse

theorem applyShelve (h : Keeps s t) {tag : Nat} : Keeps s (applyShelve tag t) := by
  unfold Machine.applyShelve
  cases t.loan tag with
  | none => exact h.refuse
  | some l => exact h.changeCopies.closeLoan.lowerReturnsOpen.notifyClosed.trigger.endPosted.ite h.refuse

theorem applyWithdrawCopy (h : Keeps s t) {tag : Nat} : Keeps s (applyWithdrawCopy tag t) := by
  unfold Machine.applyWithdrawCopy
  cases t.loan tag with
  | none => exact h.refuse
  | some l => exact h.changeCopies.closeLoan.lowerReturnsOpen.notifyClosed.endPosted.ite h.refuse

theorem handDecrease (h : Keeps s t) {patron : Nat} : Keeps s (t.handDecrease patron) := h.frame (by rfl)

theorem notifyReshelve (h : Keeps s t) {tag title : Nat} : Keeps s (t.notifyReshelve tag title) := h.notify

theorem cancelCartridge (h : Keeps s t) {tag : Nat} {l : Loan} {holder : Option Chan} :
    Keeps s (t.cancelCartridge tag l holder) := by
  have left : Keeps s (if l.state = .written then t else (t.unpinAll l.titles).leaveQueue tag) := h.ite h.unpinAll.leaveQueue
  unfold State.cancelCartridge
  simp only
  rcases l.bay with _ | b <;> rcases holder with _ | c
  · exact left
  · exact left.tellStop.ite left
  · exact left.startErase
  · exact left.startErase.tellStop.ite left.startErase

theorem cancel (h : Keeps s t) {tag : Nat} {l : Loan} : Keeps s (t.cancel tag l) := by
  unfold State.cancel
  cases l.medium with
  | cartridge => exact h.closeLoan.cancelCartridge.handDecrease.notify.handOver
  | volume => exact h.changeCopies.closeLoan.trigger.notifyReshelve.handDecrease.notify.handOver

theorem applyCancelLoan (h : Keeps s t) {tag : Nat} : Keeps s (applyCancelLoan tag t) := by
  unfold Machine.applyCancelLoan
  cases t.loan tag with
  | none => exact h.refuse
  | some l =>
    simp only
    cases l.state with
    | bagged | mailed | overdue | returning => exact h.refuse
    | planned | copying | written | picked => exact h.cancel.endPosted

theorem applyDeclareLost (h : Keeps s t) {tag : Nat} : Keeps s (applyDeclareLost tag t) := by
  unfold Machine.applyDeclareLost
  cases t.loan tag with
  | none => exact h.refuse
  | some l =>
    refine ite ?_ h.refuse
    cases l.medium with
    | cartridge => exact h.closeLoan.handDecrease.notifyClosed.endPosted
    | volume => exact h.changeCopies.closeLoan.handDecrease.notifyClosed.endPosted

theorem notifyAccepted (h : Keeps s t) {tag : Nat} {l : Loan} {gaps longest departures : Nat} :
    Keeps s (t.notifyAccepted tag l gaps longest departures) := h.notify.notify

theorem closeIdentified (h : Keeps s t) {tag : Nat} {l : Loan} : Keeps s (t.closeIdentified tag l) :=
  (h.closeLoan.lowerReturnsOpen.ite h.closeLoan.lowerLoansOut.notifyAccepted).notifyClosed

theorem applyAdvanceDay (h : Keeps s t) : Keeps s (applyAdvanceDay t) := h.hand

theorem endScan (h : Keeps s t) : Keeps s t.endScan := (h.frame (by rfl)).endPosted.ite ((h.frame (by rfl)).setPort (·.handHead))

theorem startScan (h : Keeps s t) : Keeps s t.startScan := (h.frame (by rfl)).endScan.ite (h.frame (by rfl))

theorem scanVisited (h : Keeps s t) {tag : Nat} : Keeps s (t.scanVisited tag) := (h.frame (by rfl)).ite h.endScan

theorem takeOverdueScanVisit (h : Keeps s t) : Keeps s (takeOverdueScanVisit t) := by
  unfold Machine.takeOverdueScanVisit
  cases t.scan with
  | none => exact h
  | some sc =>
    refine h.ite ?_
    rcases Table.above sc.cursor t.loans with _ | ⟨tag, l⟩
    · exact h.endScan
    · exact (h.saveLoan.notify.scanVisited.ite (h.frame (by rfl))).ite h.scanVisited

theorem resumeScan (h : Keeps s t) : Keeps s t.resumeScan := by
  unfold State.resumeScan
  cases t.scan with
  | none => exact h
  | some sc => exact (h.frame (by rfl)).ite h

/-! ### Bay events -/

theorem seat (h : Keeps s t) {b : BayNo} : Keeps s (t.seat b) := h.setBay.sendIdentity

theorem samplePresence (h : Keeps s t) {b : BayNo} {on : Bool} : Keeps s (t.samplePresence b on) := h.setBay

theorem takeBayPresenceOn (h : Keeps s t) {b : BayNo} : Keeps s (takeBayPresenceOn b t) := h.seat.ite h

theorem classify (h : Keeps s t) {b : BayNo} {i : Identity} : Keeps s (t.classify b i) := by
  refine h.rejectBay.ite ?_
  rcases t.namedLoan i with _ | ⟨tag, l⟩
  · exact h.startErase.ite (h.rejectBay.ite h.becomeBlank)
  · exact h.setBay.saveLoan.ite h.closeIdentified.startErase

theorem recordIdentity (h : Keeps s t) {b : BayNo} {i : Identity} : Keeps s (t.recordIdentity b i) := h.setBay

theorem endBayCommand (h : Keeps s t) {b : BayNo} : Keeps s (t.endBayCommand b) := h.setBay

theorem takeIdentityRecordReceived (h : Keeps s t) {b : BayNo} {record : List Byte} :
    Keeps s (takeIdentityRecordReceived b record t) := by
  unfold Machine.takeIdentityRecordReceived; split
  · simp only
    cases parseIdentity record with
    | none => exact h.endBayCommand.rejectBay
    | some i => exact h.endBayCommand.recordIdentity.classify.handOver
  · exact h

theorem takeIdentifyStallExpiry (h : Keeps s t) {b : BayNo} : Keeps s (takeIdentifyStallExpiry b t) := by
  unfold Machine.takeIdentifyStallExpiry; split
  · exact h.expire.rejectBay
  · exact h

theorem takeEraseReadyRise (h : Keeps s t) {b : BayNo} : Keeps s (takeEraseReadyRise b t) := by
  unfold Machine.takeEraseReadyRise; split
  · exact h.setBay
  · exact h

theorem takeEraseTimeLimitExpiry (h : Keeps s t) {b : BayNo} : Keeps s (takeEraseTimeLimitExpiry b t) := by
  unfold Machine.takeEraseTimeLimitExpiry; split
  · exact h.expire.rejectBay
  · exact h

theorem classifyReread (h : Keeps s t) {b : BayNo} {new : Identity} : Keeps s (t.classifyReread b new) :=
  h.setBay.rejectBay.ite (h.setBay.rejectBay.ite h.setBay.becomeBlank)

theorem takeEraseRereadReceived (h : Keeps s t) {b : BayNo} {record : List Byte} :
    Keeps s (takeEraseRereadReceived b record t) := by
  unfold Machine.takeEraseRereadReceived; split
  · simp only
    cases parseIdentity record with
    | none => exact h.endBayCommand.rejectBay
    | some i => exact h.endBayCommand.classifyReread.handOver
  · exact h

theorem takeEraseRereadStallExpiry (h : Keeps s t) {b : BayNo} : Keeps s (takeEraseRereadStallExpiry b t) := by
  unfold Machine.takeEraseRereadStallExpiry; split
  · exact h.expire.rejectBay
  · exact h

theorem takeRehomeTimerExpiry (h : Keeps s t) {tag : Nat} : Keeps s (takeRehomeTimerExpiry tag t) := by
  unfold Machine.takeRehomeTimerExpiry
  cases (t.job tag).bind Job.rehome with
  | none => exact h
  | some limit => exact h.expire.failLoan

theorem notifyPulled (h : Keeps s t) {b : BayNo} {tag : Nat} {was : BayState} : Keeps s (t.notifyPulled b tag was) :=
  h.notify

theorem loseBay (h : Keeps s t) {tag : Nat} : Keeps s (t.loseBay tag) := by
  unfold State.loseBay
  cases t.loan tag with
  | none => exact h
  | some l => exact h.saveLoan.updateJob

theorem leaveWritten (h : Keeps s t) {b : BayNo} {tag : Nat} : Keeps s (t.leaveWritten b tag) := by
  unfold State.leaveWritten
  cases t.loan tag with
  | none => exact h
  | some l => exact h.saveLoan.ite h

theorem pullCopying (h : Keeps s t) {b : BayNo} {tag : Nat} {was : BayState} : Keeps s (t.pullCopying b tag was) := by
  unfold State.pullCopying
  simp only
  cases (t.job tag).bind Job.holder with
  | none => exact h.loseBay.notifyPulled
  | some c => exact h.loseBay.notifyPulled.tellStop

theorem takeBayPresenceOff (h : Keeps s t) {b : BayNo} : Keeps s (takeBayPresenceOff b t) := by
  unfold Machine.takeBayPresenceOff
  simp only
  split
  · exact h.voidHeld.setBay.leaveWritten
  · exact h.voidHeld.setBay.loseBay.notifyPulled.seekBay.handOver
  · exact h.voidHeld.setBay.pullCopying.handOver
  · exact h.voidHeld.setBay.pullCopying.handOver
  · exact h.voidHeld.setBay.pullCopying.handOver
  · exact h.voidHeld.setBay

theorem pulse (h : Keeps s t) {b : BayNo} : Keeps s (t.pulse b) := h.setBay

theorem applyEjectBay (h : Keeps s t) {b : BayNo} : Keeps s (applyEjectBay b t) := by
  unfold Machine.applyEjectBay
  simp only
  cases (t.bay b).state with
  | blank | written | rejected => exact h.pulse.endPosted
  | empty | identifying | reserved | writing | verifying | tagging | erasing => exact h.refuse

theorem takeLatchEjectPulseEnd (h : Keeps s t) {b : BayNo} : Keeps s (takeLatchEjectPulseEnd b t) := by
  unfold Machine.takeLatchEjectPulseEnd
  cases (t.bay b).ejectPulse with
  | none => exact h
  | some limit => exact h.expire.setBay

theorem takeLampChainSendEnd (h : Keeps s t) : Keeps s (takeLampChainSendEnd t) := by
  unfold Machine.takeLampChainSendEnd
  cases t.lamp.sending with
  | none => exact h
  | some w => exact h.frame (by rfl)

theorem takeCartridgeReadyRise (h : Keeps s t) {b : BayNo} : Keeps s (takeCartridgeReadyRise b t) := by
  refine h.ite ?_
  rcases t.waitingChannel b with _ | ⟨c, cmd, limit⟩
  · exact h.setBay
  · exact h.setBay.setChan

/-! ### Channel events -/

theorem readyRises (h : Keeps s t) {c : Chan} : Keeps s (t.readyRises c) := by
  unfold State.readyRises
  simp only
  cases (t.chan c).bay with
  | none => exact h.setChan
  | some b => exact h.setChan.setBay

theorem boundaryOr (h : Keeps s t) {c : Chan} {go : State → State} (hgo : Keeps s (go t)) : Keeps s (t.boundaryOr c go) :=
  (h.release.ite hgo).handOver

theorem showCopy (h : Keeps s t) {c : Chan} {st : BayState} : Keeps s (t.showCopy c st) := by
  unfold State.showCopy
  cases (t.chan c).bay with
  | none => exact h
  | some b => exact h.setBay

theorem giveUp (h : Keeps s t) {c : Chan} : Keeps s (t.giveUp c) := by
  unfold State.giveUp
  simp only
  rcases (t.chan c).bay with _ | b <;> rcases (t.chan c).tag with _ | tag
  · exact h.release
  · exact h.loseBay.release
  · exact h.rejectBay.release
  · exact h.rejectBay.loseBay.release

theorem writeFault (h : Keeps s t) {c : Chan} : Keeps s (t.writeFault c) :=
  h.setChan.showCopy.dueCommand.ite h.giveUp

theorem takeCartridgeStallExpiry (h : Keeps s t) {c : Chan} : Keeps s (takeCartridgeStallExpiry c t) := by
  unfold Machine.takeCartridgeStallExpiry; split
  · exact h
  · exact h.expire.boundaryOr h.expire.writeFault
  · exact h

theorem takeRetryEraseLimitExpiry (h : Keeps s t) {c : Chan} : Keeps s (takeRetryEraseLimitExpiry c t) := by
  unfold Machine.takeRetryEraseLimitExpiry; split
  · exact h.expire.boundaryOr h.expire.giveUp
  · exact h

theorem restart (h : Keeps s t) {c : Chan} : Keeps s (t.restart c) := by
  unfold State.restart
  simp only
  cases (t.chan c).tag with
  | none => exact h.setChan.titleStart
  | some tag => exact h.setChan.updateJob.titleStart

theorem takeRetryEraseEnd (h : Keeps s t) {c : Chan} : Keeps s (takeRetryEraseEnd c t) := by
  unfold Machine.takeRetryEraseEnd; split
  · exact h.readyRises.boundaryOr h.readyRises.restart
  · exact h

theorem requestBlock (h : Keeps s t) {c : Chan} : Keeps s (t.requestBlock c) := h.setChan.arbitrate

theorem takeHeaderWriteEnd (h : Keeps s t) {c : Chan} : Keeps s (takeHeaderWriteEnd c t) := by
  unfold Machine.takeHeaderWriteEnd; split
  · exact h.readyRises.boundaryOr h.readyRises.setChan.requestBlock
  · exact h

theorem copyBlock (h : Keeps s t) {c : Chan} {bytes : List Byte} : Keeps s (t.copyBlock c bytes) := h.setChan.dueStalled

theorem takeChannelStoreReadComplete (h : Keeps s t) {c : Chan} {damaged : Option (List Byte)} :
    Keeps s (takeChannelStoreReadComplete c damaged t) := by
  unfold Machine.takeChannelStoreReadComplete; split
  · exact h.endTransferOf.boundaryOr h.endTransferOf.copyBlock
  · exact h

theorem writeIndexBlock (h : Keeps s t) {c : Chan} {block : Nat} : Keeps s (t.writeIndexBlock c block) :=
  h.setChan.dueStalled

theorem titleDone (h : Keeps s t) {c : Chan} : Keeps s (t.titleDone c) :=
  h.setChan.titleStart.ite h.setChan.writeIndexBlock

theorem compareStoreSum (h : Keeps s t) {c : Chan} : Keeps s (t.compareStoreSum c) := by
  unfold State.compareStoreSum
  simp only
  rcases (t.chan c).tag, (t.chan c).entry with ⟨_ | tag, _ | e⟩
  · exact h
  · exact h
  · exact h
  · exact h.titleDone.ite h.damageReport.channelFails

theorem takeImageBlockWriteEnd (h : Keeps s t) {c : Chan} : Keeps s (takeImageBlockWriteEnd c t) := by
  unfold Machine.takeImageBlockWriteEnd; split
  · exact h.readyRises.boundaryOr (h.readyRises.setChan.compareStoreSum.ite h.readyRises.setChan.requestBlock)
  · exact h

theorem verifyTitle (h : Keeps s t) {c : Chan} {index : Nat} : Keeps s (t.verifyTitle c index) := by
  unfold State.verifyTitle
  simp only
  rcases Channel.entry _ with _ | e
  · exact h
  · exact h.setChan.dueStalled

theorem takeIndexBlockWriteEnd (h : Keeps s t) {c : Chan} : Keeps s (takeIndexBlockWriteEnd c t) := by
  unfold Machine.takeIndexBlockWriteEnd; split
  · exact h.readyRises.boundaryOr (h.readyRises.writeIndexBlock.ite h.readyRises.showCopy.verifyTitle)
  · exact h

theorem compareReadBack (h : Keeps s t) {c : Chan} {e : PlanEntry} : Keeps s (t.compareReadBack c e) :=
  (h.verifyTitle.ite h.setChan.showCopy.dueStalled).ite h.writeFault

theorem takeVerifyBlockReadEnd (h : Keeps s t) {c : Chan} {block : List Byte} :
    Keeps s (takeVerifyBlockReadEnd c block t) := by
  unfold Machine.takeVerifyBlockReadEnd
  split
  · refine h.readyRises.boundaryOr ?_
    simp only
    split
    · exact h.readyRises.setChan.dueStalled.ite h.readyRises.setChan.compareReadBack
    · exact h.readyRises.setChan
  · exact h

theorem takeWriteTagEnd (h : Keeps s t) {c : Chan} : Keeps s (takeWriteTagEnd c t) := by
  unfold Machine.takeWriteTagEnd; split
  · exact h.readyRises.boundaryOr h.readyRises.setChan.dueStalled
  · exact h

theorem written (h : Keeps s t) {tag : Nat} {l : Loan} {b : BayNo} : Keeps s (t.written tag l b) :=
  h.saveLoan.unpinAll.leaveQueue.setBay.notify

theorem reportDrain (h : Keeps s t) {c : Chan} : Keeps s (t.reportDrain c) := by
  unfold State.reportDrain
  simp only
  rcases (t.chan c).tag, (t.chan c).bay with ⟨_ | tag, _ | b⟩
  · exact h
  · exact h
  · exact h
  · simp only
    cases t.loan tag with
    | none => exact h
    | some l => exact h.written.ite h

theorem takeDrainConfirmation (h : Keeps s t) {c : Chan} : Keeps s (takeDrainConfirmation c t) := by
  unfold Machine.takeDrainConfirmation; split
  · exact h.readyRises.boundaryOr h.readyRises.reportDrain.release
  · exact h

/-! ### Mailing line and route bins -/

theorem setStations (h : Keeps s t) {x : Vector StationState 30} : Keeps s { t with stations := x } := h.frame (by rfl)

theorem updateStations (h : Keeps s t) : Keeps s t.updateStations := h.setStations

theorem buildStations (h : Keeps s t) : Keeps s t.buildStations := h.setStations

theorem mailLoans (tags : List Nat) (h : Keeps s t) : Keeps s (t.mailLoans tags).1 := by
  induction tags generalizing t with
  | nil => exact h
  | cons tag tags ih =>
    unfold State.mailLoans
    cases t.loan tag with
    | none => exact ih h
    | some l => exact ih h.putLoan

theorem releaseBin (h : Keeps s t) {r : RouteNo} {u : WriteUnit} : Keeps s (t.releaseBin r u) :=
  (h.mailLoans _).setBin.hand.notifyBoth

theorem sendLine (h : Keeps s t) {stage : LineStage} {route : Option RouteNo} {c : LineCommand} {station : Nat}
    {data : List Byte} : Keeps s (t.sendLine stage route c station data) := h.frame (by rfl)

theorem refuseItem (h : Keeps s t) {tag : Nat} {why : Reason} {values : List Nat} :
    Keeps s (t.refuseItem tag why values) := h.notifyRefused

theorem beginJob (h : Keeps s t) {j : LineJob} : Keeps s (t.beginJob j).1 := by
  unfold State.beginJob
  cases j.kind with
  | home | ping a => exact h.sendLine
  | contain tag =>
    simp only
    rcases t.firstCheck tag with ⟨why, values⟩ | ⟨l, r⟩
    · exact h.refuseItem
    · by_cases off : t.station t.labelStation = .offline
      · simpa only [if_pos off] using h.refuseItem
      · simpa only [if_neg off] using h.sendLine

theorem runJobs (n : Nat) (h : Keeps s t) : Keeps s (runJobs n t) := by
  induction n generalizing t with
  | zero => exact h
  | succ n ih =>
    unfold Machine.runJobs
    cases t.lineJobs with
    | nil => exact h
    | cons j rest =>
      refine ite ?_ h
      have begun := h.beginJob (j := j)
      rcases hj : t.beginJob j with ⟨u, _ | _⟩ <;> rw [hj] at begun
      · exact ih (begun.frame (by rfl))
      · exact begun

theorem startJobs (h : Keeps s t) : Keeps s t.startJobs := h.runJobs _

theorem endJob (h : Keeps s t) : Keeps s t.endJob := (h.frame (by rfl)).startJobs

theorem appendJob (h : Keeps s t) {k : LineJobKind} : Keeps s (t.appendJob k) := (h.frame (by rfl)).startJobs

theorem applyContainItem (h : Keeps s t) {tag : Nat} : Keeps s (applyContainItem tag t) := by
  unfold Machine.applyContainItem
  cases t.loan tag with
  | none => exact h.refuse
  | some l => exact h.refuse.ite (h.refuse.ite (h.refuse.ite h.endPosted.appendJob))

theorem applyPingStation (h : Keeps s t) {a : Nat} : Keeps s (applyPingStation a t) := h.refuse.ite h.endPosted.appendJob

theorem takeLineCommandEnd (h : Keeps s t) : Keeps s (takeLineCommandEnd t) := by
  unfold Machine.takeLineCommandEnd
  cases t.lineCmd with
  | none => exact h
  | some c =>
    simp only
    cases c.phase with
    | sending => exact h.frame (by rfl)
    | awaiting limit | quiet limit => exact h

theorem refuseNak (h : Keeps s t) {tag : Nat} {c : LineSend} {reason : Nat} : Keeps s (t.refuseNak tag c reason) :=
  h.refuseItem.endJob

theorem takeLabelAnswer (h : Keeps s t) {chars : List LineChar} : Keeps s (takeLabelAnswer chars t) := by
  unfold Machine.takeLabelAnswer; split
  · rename_i tag r _ _
    cases t.secondCheck tag r with
    | some why => exact h.refuseItem.endJob
    | none => exact h.sendLine
  · exact h.refuseNak
  · exact h

theorem gated (h : Keeps s t) {tag : Nat} {l : Loan} {r : RouteNo} : Keeps s (t.gated tag l r) :=
  h.putLoan.setBin.releaseBin.ite h.putLoan.setBin.hand

theorem takeGateAnswer (h : Keeps s t) {chars : List LineChar} : Keeps s (takeGateAnswer chars t) := by
  unfold Machine.takeGateAnswer; split
  · rename_i tag r _ _
    refine ite ?_ h.refuseItem.endJob
    cases t.loan tag with
    | none => exact h.refuseItem.endJob
    | some l => exact h.gated.endJob.ite h.refuseItem.endJob
  · exact h.refuseNak
  · exact h

theorem answered (h : Keeps s t) {a : Nat} : Keeps s (t.answered a) := h.ite h.setStation

theorem takePingAnswer (h : Keeps s t) {chars : List LineChar} : Keeps s (takePingAnswer chars t) := by
  unfold Machine.takePingAnswer
  rcases t.answerTo .ping chars with _ | ⟨c, a⟩
  · exact h
  · exact h.answered.endJob

theorem goOffline (h : Keeps s t) {c : LineSend} : Keeps s (t.goOffline c) := h.setStation.notify.ite h

theorem refuseSilent (h : Keeps s t) {c : LineSend} : Keeps s (t.refuseSilent c) := by
  unfold State.refuseSilent; split
  · exact h.refuseItem
  · exact h.notifyRefused
  · exact h
  · exact h

theorem takeAnswerTimeExpiry (h : Keeps s t) : Keeps s (takeAnswerTimeExpiry t) := by
  unfold Machine.takeAnswerTimeExpiry
  rcases t.awaited with _ | ⟨c, limit⟩
  · exact h
  · exact ((h.expire (limit := limit)).frame (by rfl)).ite h.expire.goOffline.refuseSilent.endJob

theorem takeBroadcastQuietEnd (h : Keeps s t) : Keeps s (takeBroadcastQuietEnd t) := by
  unfold Machine.takeBroadcastQuietEnd
  cases t.lineCmd with
  | none => exact h
  | some c =>
    simp only
    cases c.phase with
    | quiet limit => exact h.expire.endJob
    | sending => exact h
    | awaiting limit => exact h

theorem takeCloseTimerExpiry (h : Keeps s t) {r : RouteNo} : Keeps s (takeCloseTimerExpiry r t) := by
  unfold Machine.takeCloseTimerExpiry
  cases (t.bin r).closeTimer with
  | none => exact h
  | some limit => exact h.expire.releaseBin

theorem applyBagReplaced (h : Keeps s t) {r : RouteNo} : Keeps s (applyBagReplaced r t) := by
  unfold Machine.applyBagReplaced
  cases (t.bin r).state with
  | closed => exact h.saveBin.endPosted
  | _ => exact h.refuse

theorem applyRouteOff (h : Keeps s t) {r : RouteNo} : Keeps s (applyRouteOff r t) :=
  h.refuse.ite (h.refuse.ite h.saveBin.endPosted)

theorem applyRouteOn (h : Keeps s t) {r : RouteNo} : Keeps s (applyRouteOn r t) := by
  unfold Machine.applyRouteOn
  cases (t.bin r).state with
  | off => exact h.saveBin.endPosted
  | _ => exact h.refuse

theorem retimeBin (h : Keeps s t) {r : RouteNo} : Keeps s (t.retimeBin r) := h.setBin.ite h

theorem retrigger (h : Keeps s t) {r : RouteNo} {u : WriteUnit} : Keeps s (t.retrigger r u) := h.releaseBin.ite h.hand

theorem settingChanged (h : Keeps s t) {n : Nat} {u : WriteUnit} : Keeps s (t.settingChanged n u) :=
  h.hand.updateStations.ite (h.hand.ite (h.hand.updateStations.ite (h.retrigger.ite (h.hand.retimeBin.ite h.hand))))

theorem applySetParameter (h : Keeps s t) {p : Port} {n v : Nat} : Keeps s (applySetParameter p n v t) := by
  unfold Machine.applySetParameter
  cases paramOf n with
  | none => exact h.endPosted
  | some row => exact h.hand.endPosted.ite (h.setSettings sorted_writeSetting).settingChanged.endPosted

/-! ### Selection -/

theorem planLoan (h : Keeps s t) {slot : Nat} {p : Patron} {l : Loan} {u : WriteUnit} : Keeps s (t.planLoan slot p l u) :=
  (h.putLoan.putPatron.frame (by rfl)).hand

theorem notifyPlanned (h : Keeps s t) {tag patron : Nat} {m : LoanMedium} {first count : Nat} :
    Keeps s (t.notifyPlanned tag patron m first count) := h.notify

theorem planCartridge (h : Keeps s t) {slot : Nat} {p : Patron} {b : BayNo} {plan : List PlanEntry} :
    Keeps s (t.planCartridge slot p b plan) :=
  (foldl (·.pin) plan h).planLoan.setBay.setCopyQueue.notifyPlanned

theorem planVolume (h : Keeps s t) {slot : Nat} {p : Patron} {title : Nat} {v : VolTitle} :
    Keeps s (t.planVolume slot p title v) :=
  h.changeCopies.planLoan.notify.notifyPlanned

theorem visitReader (h : Keeps s t) {slot : Nat} {p : Patron} : Keeps s (t.visitReader slot p) := by
  refine ite ?_ h
  rcases t.chooseShipment p.wants with _ | ⟨n, v⟩ | ⟨b, plan⟩
  · exact h
  · exact h.planVolume
  · exact h.planCartridge

theorem takeSelectionVisit (h : Keeps s t) : Keeps s (takeSelectionVisit t) := by
  refine ite ?_ h
  rcases t.nextReader with _ | ⟨slot, p⟩
  · exact h.frame (by rfl)
  · exact (h.frame (by rfl)).ite (h.visitReader.frame (by rfl)).handOver

theorem applySelectNow (h : Keeps s t) : Keeps s (applySelectNow t) := h.trigger.endPosted

end Keeps

/-! ### Record memory and the load -/

/-- The keyed tables of record memory in rising key order. -/
def RecordMemory.tablesSorted (m : RecordMemory) : Prop :=
  Table.sorted m.titles = true ∧ Table.sorted m.patrons = true ∧ Table.sorted m.loans = true ∧
    Table.sorted m.settings = true

theorem RecordMemory.tablesSorted.write_change {m : RecordMemory} (h : m.tablesSorted) (c : Change) :
    (c.write m).tablesSorted := by
  obtain ⟨ht, hp, hl, hs⟩ := h
  cases c with
  | title n t => cases t with
    | none => exact ⟨Table.sorted_erase _ ht, hp, hl, hs⟩
    | some t => exact ⟨Table.sorted_set _ _ ht, hp, hl, hs⟩
  | patron slot p => cases p with
    | none => exact ⟨ht, Table.sorted_erase _ hp, hl, hs⟩
    | some p => exact ⟨ht, Table.sorted_set _ _ hp, hl, hs⟩
  | loan tag l => cases l with
    | none => exact ⟨ht, hp, Table.sorted_erase _ hl, hs⟩
    | some l => exact ⟨ht, hp, Table.sorted_set _ _ hl, hs⟩
  | setting n v => exact ⟨ht, hp, hl, sorted_writeSetting hs⟩
  | nextTag tag => exact ⟨ht, hp, hl, hs⟩
  | bin r b => exact ⟨ht, hp, hl, hs⟩
  | day d => exact ⟨ht, hp, hl, hs⟩
  | mark bytes => exact ⟨ht, hp, hl, hs⟩
  | formatTables => exact ⟨rfl, rfl, rfl, rfl⟩

theorem RecordMemory.tablesSorted.write {m : RecordMemory} (h : m.tablesSorted) (u : WriteUnit) :
    (m.write u).tablesSorted := by
  unfold RecordMemory.write
  induction u generalizing m with
  | nil => exact h
  | cons c u ih => exact ih (h.write_change c)

/-- A table whose keys rise is sorted. -/
theorem Table.sorted_of_keys {α : Type} {t : Table α} (h : (t.map (fun e => e.1)).Pairwise (· < ·)) :
    Table.sorted t = true := by
  induction t with
  | nil => rfl
  | cons e t ih =>
    obtain ⟨above, rest⟩ := List.pairwise_cons.mp h
    exact (Table.sorted_cons _ _).mpr ⟨fun f hf => above f.1 (List.mem_map.mpr ⟨f, hf, rfl⟩), ih rest⟩

/-- The entries kept of a sorted table, each under its key, are a sorted table. -/
theorem Table.sorted_filterMap {α β : Type} {t : Table α} (h : Table.sorted t = true) (f : Nat × α → Option β) :
    Table.sorted (t.filterMap (fun e => (f e).map (fun b => (e.1, b)))) = true := by
  refine Table.sorted_of_keys (((Table.sorted_keys h).sublist ?_))
  clear h
  induction t with
  | nil => exact .slnil
  | cons e t ih => cases hf : f e with
    | none => simpa [List.filterMap_cons, hf] using ih.cons e.1
    | some b => simpa [List.filterMap_cons, hf] using ih

theorem Table.sorted_map {α β : Type} {t : Table α} (h : Table.sorted t = true) (f : Nat × α → β) :
    Table.sorted (t.map (fun e => (e.1, f e))) = true := by
  simpa using Table.sorted_filterMap h (fun e => some (f e))

/-- Settings written one after the other. -/
theorem sorted_writeSettings {f : Nat × Nat → Nat} (l : List (Nat × Nat)) {t : Table Nat} (h : Table.sorted t = true) :
    Table.sorted (l.foldl (fun t e => writeSetting e.1 (f e) t) t) = true := by
  induction l generalizing t with
  | nil => exact h
  | cons e l ih => exact ih (sorted_writeSetting h)

namespace Keeps

variable {s t : State}

theorem setMem (h : Keeps s t) {m : RecordMemory} (hm : t.mem.tablesSorted → m.tablesSorted) :
    Keeps s { t with mem := m } :=
  h.trans ⟨id, fun ⟨h1, h2, h3, h4, hmem⟩ => ⟨h1, h2, h3, h4, hm hmem⟩, id⟩

theorem load (h : Keeps s t) : Keeps s t.load := by
  refine h.trans ⟨id, fun ⟨_, _, _, _, hmem⟩ => ?_, id⟩
  obtain ⟨mt, mp, ml, ms⟩ := hmem
  refine ⟨?_, Table.sorted_map mp _, Table.sorted_map ml _, sorted_writeSettings _ rfl, mt, mp, ml, ms⟩
  simpa [State.load, reconcileTitles, List.filterMap_map, Function.comp_def]
    using Table.sorted_filterMap mt (fun e => e.2.reconcile t.mem.loans e.1)

theorem takePartReset (h : Keeps s t) : Keeps s (takePartReset t) :=
  h.trans ⟨id, fun ⟨_, _, _, _, hmem⟩ => ⟨rfl, rfl, rfl, rfl, hmem⟩,
    fun _ => ⟨PortUnit.bounded_empty _, PortUnit.bounded_empty _⟩⟩

theorem enterUnformatted (h : Keeps s t) : Keeps s t.enterUnformatted := h.frame (by rfl)

theorem takeFormatMarkRead (h : Keeps s t) {answered : Bool} : Keeps s (takeFormatMarkRead answered t) := by
  unfold Machine.takeFormatMarkRead
  cases t.startup with
  | readingMark limit =>
    refine ite ?_ h.expire.enterUnformatted
    cases testMark t.mem.mark with
    | valid => exact h.frame (by rfl)
    | absent => exact h.enterUnformatted
    | invalid => exact h.enterUnformatted
  | loading | reconciled | formatting | formatted | settled => exact h

theorem takeRecordLoadComplete (h : Keeps s t) {ok : Bool} : Keeps s (takeRecordLoadComplete ok t) := by
  unfold Machine.takeRecordLoadComplete
  cases t.startup with
  | loading => exact h.load.ite h.enterUnformatted
  | readingMark limit => exact h
  | reconciled | formatting | formatted | settled => exact h

theorem notifyStarted (h : Keeps s t) : Keeps s t.notifyStarted := h.notifyBoth

theorem seekAll (h : Keeps s t) : Keeps s t.seekAll := foldl (·.seekBay) _ h

theorem seatAll (h : Keeps s t) : Keeps s t.seatAll := foldl (fun k => k.seat.ite k) _ h

theorem retimeBins (h : Keeps s t) : Keeps s t.retimeBins := foldl (·.retimeBin) _ h

theorem beginRunning (h : Keeps s t) : Keeps s t.beginRunning :=
  h.notifyStarted.trigger.startScan.seekAll.seatAll.retimeBins.buildStations.appendJob

theorem takeRecordsReady (h : Keeps s t) : Keeps s (takeRecordsReady t) := by
  unfold Machine.takeRecordsReady
  simp only
  cases t.startup with
  | reconciled => exact (h.frame (by rfl)).beginRunning
  | formatted => exact (h.frame (by rfl)).beginRunning.endPosted
  | readingMark limit => exact h
  | loading | formatting | settled => exact h

theorem unitWritten (h : Keeps s t) {u : WriteUnit} : Keeps s (t.unitWritten u) := by
  unfold State.unitWritten
  split
  · exact (h.frame (by rfl)).startScan
  · exact (h.frame (by rfl)).ite h
  · exact h

theorem rewrite (h : Keeps s t) : Keeps s t.rewrite := h.frame (by rfl)

theorem finishUnit (h : Keeps s t) : Keeps s t.finishUnit := by
  unfold State.finishUnit
  cases t.writeQueue with
  | nil => exact h
  | cons u rest => exact ((h.setMem (·.write u)).frame (by rfl)).unitWritten

theorem takeUnitWriteAckTimeout (h : Keeps s t) : Keeps s (takeUnitWriteAckTimeout t) := by
  unfold Machine.takeUnitWriteAckTimeout
  cases t.writeDeadline with
  | none => exact h
  | some limit => exact h.expire.rewrite

theorem handFormat (h : Keeps s t) : Keeps s t.handFormat := h.hand.hand

theorem handErasure (h : Keeps s t) : Keeps s t.handErasure := h.ite h.hand

theorem formatBlocks (h : Keeps s t) : Keeps s t.formatBlocks :=
  buildStations (h.trans ⟨id, fun ⟨_, _, hl, _, hmem⟩ => ⟨rfl, rfl, hl, rfl, hmem⟩, id⟩)

theorem applyFormatRecords (h : Keeps s t) : Keeps s (applyFormatRecords t) := by
  unfold Machine.applyFormatRecords
  cases t.mode with
  | unformatted => exact (h.frame (by rfl)).handErasure.handFormat
  | starting => exact h
  | ready => exact h.formatBlocks.hand.handFormat.endPosted.ite h.refuse

/-! ### Returns station -/

theorem failRecognition (h : Keeps s t) {why : Reason} {stage : Stage} {tag : Nat} :
    Keeps s (t.failRecognition why stage tag) := (h.frame (by rfl)).notify

theorem failHere (h : Keeps s t) {why : Reason} : Keeps s (t.failHere why) := h.failRecognition

theorem applyRejectContainer (h : Keeps s t) : Keeps s (applyRejectContainer t) := by
  unfold Machine.applyRejectContainer
  cases t.recog.stage with
  | idle | accepted => exact h.refuse
  | sensed | tagRead | settled => exact h.failHere.endPosted

/-- No invariant is about the recognizer. -/
theorem setRecog (h : Keeps s t) {r : Recognizer} : Keeps s { t with recog := r } := h.frame (by rfl)

theorem settle (h : Keeps s t) : Keeps s t.settle := h.setRecog.ite h

theorem beginRecognition (h : Keeps s t) : Keeps s t.beginRecognition := h.setRecog

theorem endGap (h : Keeps s t) {limit : Nat} : Keeps s (t.endGap limit) := h.setRecog.settle

theorem takeReturnsPresenceRise (h : Keeps s t) : Keeps s (takeReturnsPresenceRise t) := by
  refine h.ite ?_
  cases t.recog.stage with
  | idle => exact h.beginRecognition.ite h.setRecog
  | sensed | tagRead => cases t.recog.dropoutTimer with
    | some limit => exact h.endGap
    | none => exact h.setRecog
  | settled => exact h.setRecog.ite h.setRecog
  | accepted => exact h.setRecog

theorem beginGap (h : Keeps s t) : Keeps s t.beginGap := h.setRecog

theorem takeReturnsPresenceFall (h : Keeps s t) : Keeps s (takeReturnsPresenceFall t) := by
  refine ite ?_ h
  cases t.recog.stage with
  | idle | settled | accepted => exact h.setRecog
  | sensed | tagRead => exact h.beginGap

theorem lookUp (h : Keeps s t) {tag patron : Nat} : Keeps s (t.lookUp tag patron) := by
  unfold State.lookUp
  simp only
  cases t.outLoan tag patron with
  | error why => exact h.setRecog.failRecognition
  | ok l => exact h.setRecog.setRecog.settle

theorem takeReadTagAnswer (h : Keeps s t) {answer : List Byte} : Keeps s (takeReadTagAnswer answer t) := by
  refine ite ?_ h
  cases parseTagAnswer answer with
  | card tag patron => exact h.lookUp
  | noCard => exact h

theorem acceptReturn (h : Keeps s t) {tag : Nat} {l : Loan} : Keeps s (t.acceptReturn tag l) := by
  unfold State.acceptReturn
  simp only
  rcases State.reader _ l.patron with _ | ⟨slot, p⟩
  · exact h.saveLoan.notifyAccepted.setRecog
  · exact h.saveLoan.putPatron.trigger.notifyAccepted.setRecog

theorem depart (h : Keeps s t) : Keeps s t.depart := by
  unfold State.depart
  simp only
  cases t.outLoan (orZero t.recog.tag) (orZero t.recog.patron) with
  | ok l => exact h.acceptReturn
  | error why => exact h.failRecognition

theorem takeTagReadTimerExpiry (h : Keeps s t) : Keeps s (takeTagReadTimerExpiry t) := by
  unfold Machine.takeTagReadTimerExpiry; split
  · exact h.expire.failHere
  · exact h

theorem takeDwellTimerExpiry (h : Keeps s t) : Keeps s (takeDwellTimerExpiry t) := by
  unfold Machine.takeDwellTimerExpiry
  cases t.recog.dwellTimer with
  | none => exact h
  | some limit => exact h.expire.setRecog.settle

theorem takeDropoutTimerExpiry (h : Keeps s t) : Keeps s (takeDropoutTimerExpiry t) := by
  unfold Machine.takeDropoutTimerExpiry
  cases t.recog.dropoutTimer with
  | none => exact h
  | some limit => exact h.expire.failHere

theorem takeClearTimerExpiry (h : Keeps s t) : Keeps s (takeClearTimerExpiry t) := by
  unfold Machine.takeClearTimerExpiry; split
  · exact h.expire.depart
  · exact h

theorem takeDepartureTimerExpiry (h : Keeps s t) : Keeps s (takeDepartureTimerExpiry t) := by
  unfold Machine.takeDepartureTimerExpiry; split
  · exact h.expire.failHere
  · exact h

/-! ### Ports -/

/-- A port changed in its exchange, its reset line or how far its head's application has come. -/
theorem setPortFrame (h : Keeps s t) {p : Port} {u : PortUnit}
    (same : (u.posted, u.delayed, u.notices) = ((t.port p).posted, (t.port p).delayed, (t.port p).notices)) :
    Keeps s (t.setPort p u) := h.setPort (·.frame same)

theorem reply (h : Keeps s t) {p : Port} {r : Reply} {x : HandOver} : Keeps s (t.reply p r x) := h.setPortFrame rfl

theorem replyRefused (h : Keeps s t) {p : Port} {why : Reason} : Keeps s (t.replyRefused p why) := h.reply

theorem closeExchange (h : Keeps s t) {p : Port} : Keeps s (t.closeExchange p) := h.setPortFrame rfl

theorem takeReplyEnd (h : Keeps s t) {p : Port} : Keeps s (takeReplyEnd p t) := by
  unfold Machine.takeReplyEnd
  cases (t.port p).exchange with
  | none => exact h
  | some x =>
    refine h.ite ?_
    have ended : Keeps s (t.setPort p
        { (t.port p).handOver x.handOver with exchange := some { x with ended := true } }) :=
      h.setPort fun hu => (hu.handOver x.handOver).frame rfl
    cases p with
    | cp => exact ended.resumeScan
    | fp => exact ended

theorem takeMalformedHeader (h : Keeps s t) {p : Port} {header : List Byte} : Keeps s (takeMalformedHeader p header t) :=
  h.ite (h.replyRefused.ite h)

theorem takeUnknownRequestCode (h : Keeps s t) {f : Frame} {code : Byte} : Keeps s (takeUnknownRequestCode f code t) :=
  h.ite (h.replyRefused.ite h)

theorem immediate (h : Keeps s t) {code : ReqCode} {f : Frame} {go : State → State} (hgo : Keeps s (go t)) :
    Keeps s (t.immediate code f go) := by
  refine h.ite ?_
  cases frameCheck f code with
  | some why => exact h.replyRefused
  | none => exact hgo

theorem takeTakeNotice (h : Keeps s t) {f : Frame} : Keeps s (takeTakeNotice f t) := h.immediate h.reply

theorem takePortStatus (h : Keeps s t) {f : Frame} : Keeps s (takePortStatus f t) := h.immediate h.reply

theorem resetPort (h : Keeps s t) {p : Port} : Keeps s (t.resetPort p) := by
  have emptied : Keeps s (t.setPort p (t.port p).reset) := h.setPort fun _ => PortUnit.bounded_reset _
  cases p with
  | cp => exact emptied.resumeScan
  | fp => exact emptied

theorem takePortReset (h : Keeps s t) {f : Frame} : Keeps s (takePortReset f t) := h.immediate h.resetPort.reply

theorem takePortResetLine (h : Keeps s t) {p : Port} : Keeps s (takePortResetLine p t) :=
  h.ite (h.resetPort.setPortFrame (by rfl))

theorem takePortResetLineRelease (h : Keeps s t) {p : Port} : Keeps s (takePortResetLineRelease p t) :=
  h.setPortFrame rfl

theorem present (h : Keeps s t) {p : Port} {code : ReqCode} {key : Nat} : Keeps s (t.present p code key) := by
  unfold State.present
  simp only
  cases new : (t.port p).delayed.find? (fun d => d.is code key) with
  | some d =>
    simp only
    cases d.condition with
    | complete r limit => exact h.reply
    | waiting => exact h.reply
    | executing r => exact h.reply
  | none =>
    by_cases room : (t.port p).delayed.length < Config.maxDelayed
    · simpa only [if_pos room] using (h.setPort fun hu => hu.delay new room _ _).reply
    · simpa only [if_neg room] using h.reply

theorem takeDelayed (h : Keeps s t) {code : ReqCode} {f : Frame} : Keeps s (t.takeDelayed code f) := by
  refine h.ite ?_
  cases frameCheck f code with
  | some why => exact h.replyRefused
  | none =>
    refine ite ?_ h.replyRefused
    cases t.mode with
    | starting => exact h.reply
    | unformatted => exact h.replyRefused
    | ready => exact h.present

theorem takeDelayedEntryStart (h : Keeps s t) {p : Port} : Keeps s (takeDelayedEntryStart p t) :=
  h.setPort (·.startEntry _)

theorem takeDelayedResultComplete (h : Keeps s t) {p : Port} {code : ReqCode} {key : Nat} :
    Keeps s (takeDelayedResultComplete p code key t) := h.setPort (·.finish _ _ _)

theorem takeDiscardTimerExpiry (h : Keeps s t) {p : Port} {code : ReqCode} {key : Nat} :
    Keeps s (takeDiscardTimerExpiry p code key t) := by
  unfold Machine.takeDiscardTimerExpiry
  cases (t.port p).discardLimit code key with
  | none => exact h
  | some limit => exact (h.expire.setPort (·.freeEntry _ _)).notify

/-! ### Posted requests -/

theorem applyPosted (h : Keeps s t) {p : Port} (q : PostedReq) : Keeps s (applyPosted p q t) := by
  cases q with
  | defineTitle n d => exact h.applyDefineTitle
  | stageBegin n => exact h.applyStageBegin
  | stageBlock n i bytes => exact h.applyStageBlock
  | retireTitle n => exact h.applyRetireTitle
  | addCopies n count => exact h.applyAddCopies
  | removeCopy n => exact h.applyRemoveCopy
  | enrolPatron number allowance route hold => exact h.applyEnrolPatron
  | amendPatron number allowance route hold => exact h.applyAmendPatron
  | removePatron number => exact h.applyRemovePatron
  | addWant number title front => exact h.applyAddWant
  | dropWant number title => exact h.applyDropWant
  | cancelLoan tag => exact h.applyCancelLoan
  | declareLost tag => exact h.applyDeclareLost
  | advanceDay => exact h.applyAdvanceDay
  | selectNow => exact h.applySelectNow
  | formatRecords => exact h.applyFormatRecords
  | picked tag => exact h.applyPicked
  | pickFailed tag => exact h.applyPickFailed
  | shelve tag => exact h.applyShelve
  | withdrawCopy tag => exact h.applyWithdrawCopy
  | ejectBay b => exact h.applyEjectBay
  | containItem tag => exact h.applyContainItem
  | pingStation a => exact h.applyPingStation
  | bagReplaced r => exact h.applyBagReplaced
  | routeOff r => exact h.applyRouteOff
  | routeOn r => exact h.applyRouteOn
  | rejectContainer => exact h.applyRejectContainer
  | setParameter n v => exact h.applySetParameter

theorem applyHead (h : Keeps s t) {p : Port} : Keeps s (t.applyHead p) := by
  unfold State.applyHead
  cases (t.port p).posted with
  | nil => exact h
  | cons q rest => exact (h.applyPosted q).ite h.hold

theorem handHead (h : Keeps s t) {p : Port} : Keeps s (t.handHead p) := h.ite (h.setPort (·.handHead))

theorem startPosted (h : Keeps s t) {p : Port} : Keeps s (t.startPosted p) :=
  (h.handHead.setPortFrame (by rfl)).applyHead.ite h

theorem queue (h : Keeps s t) {p : Port} {q : PostedReq} {atOnce : Bool} : Keeps s (t.queue p q atOnce) := by
  by_cases room : (t.port p).posted.length < Config.maxPosted
  · have accepted := (h.setPort fun hu : (t.port p).bounded => hu.post room q).reply (p := p) (r := .accepted) (x := .none)
    simpa only [State.queue, if_pos room] using accepted.startPosted.ite accepted
  · simpa only [State.queue, if_neg room] using h.reply

theorem takePosted (h : Keeps s t) {code : ReqCode} {f : Frame} {atOnce : Bool} : Keeps s (t.takePosted code f atOnce) := by
  refine h.ite ?_
  cases frameCheck f code with
  | some why => exact h.replyRefused
  | none =>
    simp only
    cases parsePosted code (frameKey f) f.payload with
    | none => exact h.replyRefused
    | some q =>
      simp only
      cases t.mode with
      | starting => exact h.reply
      | unformatted => exact h.queue.ite h.replyRefused
      | ready => exact h.queue

/-! ### Commands -/

/-- The event of every command keeps the invariants, as it comes or as it is taken from those held back. -/
theorem retake (h : Keeps s t) : ∀ e, Keeps s (retake e t)
  | .partReset => h
  | .formatMarkRead _ => h.takeFormatMarkRead
  | .recordLoadComplete _ => h
  | .recordsReady => h.takeRecordsReady
  | .unitWriteComplete _ _ => h
  | .unitWriteAckTimeout => h.takeUnitWriteAckTimeout
  | .overdueScanVisit => h.takeOverdueScanVisit
  | .exchangeVoid _ => h.closeExchange
  | .replyEnd _ => h.takeReplyEnd
  | .malformedHeader _ _ => h.takeMalformedHeader
  | .unknownRequestCode _ _ => h.takeUnknownRequestCode
  | .takeNotice _ => h.takeTakeNotice
  | .portStatus _ => h.takePortStatus
  | .portReset _ => h.takePortReset
  | .portResetLine _ => h.takePortResetLine
  | .postedApplicationStart _ => h.applyHead
  | .storeTransferComplete => h.takeStoreTransferComplete
  | .stagingWriteComplete => h.takeStagingWriteComplete
  | .stagingIdleExpiry _ => h.takeStagingIdleExpiry
  | .withdrawalWalkStep => h.takeWithdrawalWalkStep
  | .restoration _ => h.takeRestoration
  | .loansOutDecrease _ => h.takeLoansOutDecrease
  | .selectionVisit => h.takeSelectionVisit
  | .latchEjectPulseEnd _ => h.takeLatchEjectPulseEnd
  | .defineTitle _ _ | .stageBegin _ _ | .stageBlock _ _ | .retireTitle _ _ | .addCopies _ _ | .removeCopy _ _
  | .enrolPatron _ _ | .amendPatron _ _ | .removePatron _ _ | .addWant _ _ | .dropWant _ _ | .cancelLoan _ _
  | .declareLost _ _ | .advanceDay _ _ | .selectNow _ _ | .formatRecords _ _ | .picked _ _ | .pickFailed _ _
  | .shelve _ _ | .withdrawCopy _ _ | .ejectBay _ _ | .containItem _ _ | .pingStation _ _ | .bagReplaced _ _
  | .routeOff _ _ | .routeOn _ _ | .rejectContainer _ _ | .setParameter _ _ => h.takePosted
  | .titleQuery _ | .patronQuery _ | .loanQuery _ | .channelQuery _ | .stationQuery _ | .binQuery _
  | .parameterQuery _ => h.takeDelayed
  | .delayedEntryStart _ => h.takeDelayedEntryStart
  | .delayedResultComplete _ _ _ => h.takeDelayedResultComplete
  | .discardTimerExpiry _ _ _ => h.takeDiscardTimerExpiry
  | .bayPresenceOn _ => h.takeBayPresenceOn
  | .bayPresenceOff _ => h.takeBayPresenceOff
  | .identityRecordReceived _ _ => h.takeIdentityRecordReceived
  | .identifyStallExpiry _ => h.takeIdentifyStallExpiry
  | .eraseReadyRise _ => h.takeEraseReadyRise
  | .eraseTimeLimitExpiry _ => h.takeEraseTimeLimitExpiry
  | .eraseRereadReceived _ _ => h.takeEraseRereadReceived
  | .eraseRereadStallExpiry _ => h.takeEraseRereadStallExpiry
  | .rehomeTimerExpiry _ => h.takeRehomeTimerExpiry
  | .lampChainSendEnd => h.takeLampChainSendEnd
  | .headerWriteEnd _ => h.takeHeaderWriteEnd
  | .channelStoreReadComplete _ _ => h.takeChannelStoreReadComplete
  | .imageBlockWriteEnd _ => h.takeImageBlockWriteEnd
  | .indexBlockWriteEnd _ => h.takeIndexBlockWriteEnd
  | .verifyBlockReadEnd _ _ => h.takeVerifyBlockReadEnd
  | .writeTagEnd _ => h.takeWriteTagEnd
  | .drainConfirmation _ => h.takeDrainConfirmation
  | .cartridgeStallExpiry _ => h.takeCartridgeStallExpiry
  | .retryEraseEnd _ => h.takeRetryEraseEnd
  | .retryEraseLimitExpiry _ => h.takeRetryEraseLimitExpiry
  | .labelAnswer _ => h.takeLabelAnswer
  | .gateAnswer _ => h.takeGateAnswer
  | .pingAnswer _ => h.takePingAnswer
  | .answerTimeExpiry => h.takeAnswerTimeExpiry
  | .lineAnswerDiscarded _ => h
  | .broadcastQuietEnd => h.takeBroadcastQuietEnd
  | .closeTimerExpiry _ => h.takeCloseTimerExpiry
  | .returnsPresenceRise => h.takeReturnsPresenceRise
  | .returnsPresenceFall => h.takeReturnsPresenceFall
  | .readTagAnswer _ => h.takeReadTagAnswer
  | .tagReadTimerExpiry => h.takeTagReadTimerExpiry
  | .dwellTimerExpiry => h.takeDwellTimerExpiry
  | .dropoutTimerExpiry => h.takeDropoutTimerExpiry
  | .clearTimerExpiry => h.takeClearTimerExpiry
  | .departureTimerExpiry => h.takeDepartureTimerExpiry
  | .exchangeEnd _ => h.closeExchange
  | .portResetLineRelease _ => h.takePortResetLineRelease
  | .lineCommandEnd => h.takeLineCommandEnd
  | .cartridgeReadyRise _ => h.takeCartridgeReadyRise

theorem takeHeld (h : Keeps s t) {x : Held} : Keeps s (t.takeHeld x) := (h.commit (·.retake _)).ite h

theorem takeWaiting (n pick : Nat) (h : Keeps s t) : Keeps s (takeWaiting n pick t) := by
  induction n generalizing t pick with
  | zero => exact h
  | succ n ih =>
    refine ite ?_ h
    rcases pickFrom pick t.waiting with _ | ⟨x, rest⟩
    · exact h
    · exact ih 0 (h.frame (by rfl)).takeHeld

theorem takePlace (h : Keeps s t) {pick : Nat} : Keeps s (t.takePlace pick) :=
  (h.takeWaiting _ _).handOver.lampAfter.ite (h.handOver.lampAfter.takeWaiting _ _)

theorem takeUnitWriteComplete (h : Keeps s t) {equal : Bool} {pick : Nat} :
    Keeps s (takeUnitWriteComplete equal pick t) := (h.finishUnit.takePlace.ite h.rewrite).ite h

/-- What a command answers: six commands are taken in their own way, every other one by its event and R188. -/
theorem exec (s : State) (i : Instr) : ∃ t, exec i s = .next t ∧ Keeps s t := by
  cases hi : i with
  | partReset => exact ⟨_, rfl, (refl s).takePartReset⟩
  | recordLoadComplete => exact ⟨_, rfl, (refl s).takeRecordLoadComplete⟩
  | unitWriteComplete => exact ⟨_, rfl, (refl s).takeUnitWriteComplete⟩
  | postedApplicationStart => exact ⟨_, rfl, (refl s).commit (·.startPosted)⟩
  | bayPresenceOn => exact ⟨_, rfl, (refl s).samplePresence.commit (·.takeBayPresenceOn)⟩
  | bayPresenceOff => exact ⟨_, rfl, (refl s).samplePresence.commit (·.takeBayPresenceOff)⟩
  | _ => exact ⟨Machine.commit i (Machine.retake i) s, by subst hi; rfl, (refl s).commit (·.retake _)⟩

theorem step (h : step s = .next t) : Keeps s t := by
  unfold Machine.step at h
  cases hp : s.pending with
  | nil =>
    rw [hp] at h
    cases h
    exact (refl s).tick
  | cons c rest =>
    obtain ⟨u, hu, kept⟩ := exec { s with pending := rest } c
    simp only [hp, hu] at h
    cases h
    exact ((refl s).frame (by rfl)).trans kept

end Keeps

/-- Settles O58: the canonical forms are among the invariants that every step keeps. -/
theorem canonicalFormsKept : Obligations.CanonicalFormsKept :=
  ⟨fun _ _ hs h => (Keeps.step h).store hs, fun _ _ hs h => (Keeps.step h).tables hs⟩

/-- Settles O59: the bounds of the ports' queues are among the invariants that every step keeps. -/
theorem portsBoundedKept : Obligations.PortsBoundedKept := fun _ _ hs h => (Keeps.step h).ports hs

/-- Settles O60: the reset state has no block, no record and no queue entry. -/
theorem resetInvariants : Obligations.ResetInvariants :=
  ⟨reset_storeWf, ⟨PortUnit.bounded_empty _, PortUnit.bounded_empty _⟩, ⟨rfl, rfl, rfl, rfl, rfl, rfl, rfl, rfl⟩⟩

end Sys2Proof.Machine
end

section
/-! SUPPORT. The state in which a port has handed a request over, and what its application makes of it: every operation
on the records and on the notices goes past the hand-over, so that a posted request is settled by one equation for its
row. -/

namespace Sys2Proof.Machine

section
variable (p : Port) (q : PostedReq) (s : State)

/-! ### What a request just handed over leaves alone -/

@[simp] theorem State.taking_dayCount : (s.taking p q).dayCount = s.dayCount := by cases p <;> rfl

@[simp] theorem State.taking_titles : (s.taking p q).titles = s.titles := by cases p <;> rfl

@[simp] theorem State.taking_loans : (s.taking p q).loans = s.loans := by cases p <;> rfl

@[simp] theorem State.taking_loan (tag : Nat) : (s.taking p q).loan tag = s.loan tag := by cases p <;> rfl

@[simp] theorem State.taking_copyQueue : (s.taking p q).copyQueue = s.copyQueue := by cases p <;> rfl

/-! ### Operations go past the hand-over -/

theorem State.notify_taking (r : Port) (n : Notice) : (s.taking p q).notify r n = (s.notify r n).taking p q := by
  cases p <;> cases r <;> simp only [State.notify, PortUnit.append_eq] <;> rfl

theorem State.putTitle_taking (n : Nat) (t : Title) : (s.taking p q).putTitle n t = (s.putTitle n t).taking p q := by
  cases p <;> rfl

theorem State.saveLoan_taking (tag : Nat) (l : Loan) : (s.taking p q).saveLoan tag l = (s.saveLoan tag l).taking p q := by
  cases p <;> rfl

theorem State.closeLoan_taking (tag : Nat) (u : WriteUnit) :
    (s.taking p q).closeLoan tag u = (s.closeLoan tag u).taking p q := by
  rw [State.closeLoan_eq, State.closeLoan_eq]
  cases p <;> rfl

theorem State.handDecrease_taking (patron : Nat) :
    (s.taking p q).handDecrease patron = (s.handDecrease patron).taking p q := by cases p <;> rfl

theorem State.lowerReturnsOpen_taking (patron : Nat) :
    (s.taking p q).lowerReturnsOpen patron = (s.lowerReturnsOpen patron).taking p q := by
  rw [State.lowerReturnsOpen_eq, State.lowerReturnsOpen_eq]
  cases p <;> rfl

theorem State.triggered_taking : (s.taking p q).trigger = s.trigger.taking p q := by cases p <;> rfl

end

section
variable (s : State)

/-! ### Write queue and bays of shared operations -/

@[simp] theorem State.closeLoan_writeQueue (tag : Nat) (u : WriteUnit) :
    (s.closeLoan tag u).writeQueue = s.writeQueue ++ [.loan tag none :: u] := by rw [State.closeLoan_eq]

@[simp] theorem State.closeLoan_bays (tag : Nat) (u : WriteUnit) : (s.closeLoan tag u).bays = s.bays := by
  rw [State.closeLoan_eq]

@[simp] theorem State.lowerReturnsOpen_writeQueue (patron : Nat) :
    (s.lowerReturnsOpen patron).writeQueue = s.writeQueue := by rw [State.lowerReturnsOpen_eq]

@[simp] theorem State.lowerReturnsOpen_bays (patron : Nat) : (s.lowerReturnsOpen patron).bays = s.bays := by
  rw [State.lowerReturnsOpen_eq]

@[simp] theorem State.handDecrease_writeQueue (patron : Nat) : (s.handDecrease patron).writeQueue = s.writeQueue := rfl

@[simp] theorem State.handDecrease_bays (patron : Nat) : (s.handDecrease patron).bays = s.bays := rfl

@[simp] theorem State.saveLoan_writeQueue (tag : Nat) (l : Loan) :
    (s.saveLoan tag l).writeQueue = s.writeQueue ++ [[.loan tag (some l)]] := rfl

@[simp] theorem State.saveLoan_bays (tag : Nat) (l : Loan) : (s.saveLoan tag l).bays = s.bays := rfl

/-- The copy counts of a volume title changed, with the change for the event's unit (R21). -/
theorem State.changeCopies_volume {s : State} {n : Nat} {w : Bool} {v : VolTitle}
    (h : s.title n = some { withdrawing := w, body := .vol v }) (g : VolTitle → VolTitle) :
    s.changeCopies n g =
      (s.putTitle n { withdrawing := w, body := .vol (g v) },
        [.title n (some (Title.kept { withdrawing := w, body := .vol (g v) }))]) := by
  simp [State.changeCopies, h]

end

section
variable {i e : Instr} {f : Frame} {p : Port} {q : PostedReq} {s t u : State}

/-- A command that takes a posted request on a free port, its application ended with a place for its units: the effect
`t` on the state before, and the request gone from the port. -/
theorem exec_postedApplied (hi : exec i s = .next (commit e (State.takePosted q.code f true) s)) (hp : f.port = p)
    (hs : s.free p) (hf : Spells f q) (ht : applyPosted p q (s.taking p q) = u.endPosted p) (hu : u = t.taking p q)
    (hw : t.writeQueue.length ≤ Config.maxUnits) (hb : t.bays = s.bays) : exec i s = .next (State.applied p t) := by
  rw [hu, State.endPosted_taking] at ht
  exact exec_posted hi hp hs hf ht (by simpa using hw) (by simpa using hb)

/-- The same where bays change: the lamp chain follows them (R91). -/
theorem exec_postedAppliedLamp (hi : exec i s = .next (commit e (State.takePosted q.code f true) s)) (hp : f.port = p)
    (hs : s.free p) (hf : Spells f q) (ht : applyPosted p q (s.taking p q) = u.endPosted p) (hu : u = t.taking p q)
    (hw : t.writeQueue.length ≤ Config.maxUnits) : exec i s = .next (lampAfter s (State.applied p t)) := by
  rw [hu, State.endPosted_taking] at ht
  exact exec_postedLamp hi hp hs hf ht (by simpa using hw)

end

end Sys2Proof.Machine
end

section
/-! CERTIFICATES. One step (log entries 1 and 2), part reset (R184), and the exchange (R169, R195). -/

namespace Sys2Proof.Machine

/-- Settles O34: both clauses are the two branches of `step`. -/
theorem stepTakesFrontCommand : Obligations.StepTakesFrontCommand := by
  refine ⟨fun _ _ _ => rfl, fun s hs => ?_⟩
  have ticks : step s = .next s.tick := by simp only [step, hs]
  exact ticks

/-! ### Part reset -/

theorem resetBays_get (bays : Vector Bay 16) (b : BayNo) :
    (resetBays bays)[b] = { Bay.vacant with presence := bays[b].presence } := by
  simp [resetBays]

theorem resetBays_vacant : resetBays (Vector.replicate 16 Bay.vacant) = Vector.replicate 16 Bay.vacant := by
  simp only [resetBays, Vector.map_replicate]

theorem takePartReset_reset : takePartReset State.reset = State.reset := by
  simp only [takePartReset, State.reset, resetBays_vacant]
  rfl

theorem takePartReset_chan (s : State) (c : Chan) : (takePartReset s).chan c = .cleared := by cases c <;> rfl

theorem takePartReset_bay (s : State) (b : BayNo) :
    (takePartReset s).bay b = { Bay.vacant with presence := (s.bay b).presence } := resetBays_get s.bays b

theorem takePartReset_port (s : State) (p : Port) : (takePartReset s).port p = .empty (s.port p).resetLine := by
  cases p <;> rfl

theorem takePartReset_station (s : State) (a : Nat) : (takePartReset s).station a = .unused := by
  unfold State.station
  split
  · rfl
  · show (Vector.replicate 30 StationState.unused)[a - 1]?.getD .unused = .unused
    by_cases h : a - 1 < 30
    · simp [h]
    · simp [h]

/-- Settles O35: every field of the state that part reset leaves is the reset state's, but for the pins' levels, record
memory, the store and the queue. -/
theorem partResetLeaves : Obligations.PartResetLeaves := by
  refine ⟨congrArg _ takePartReset_reset, fun s => ⟨takePartReset s, rfl, ?_⟩⟩
  refine ⟨rfl, rfl, rfl, rfl, rfl, rfl, rfl, rfl, rfl, rfl, rfl, rfl, rfl, rfl, rfl, rfl, rfl, rfl, rfl, ?channels, ?bays,
    rfl, rfl, takePartReset_station s, rfl, rfl, ?ports, rfl, rfl, rfl⟩
  case channels =>
    intro c
    rw [takePartReset_chan]
    exact ⟨rfl, rfl, rfl⟩
  case bays =>
    intro b
    rw [takePartReset_bay]
    exact ⟨rfl, rfl, rfl⟩
  case ports =>
    intro p
    rw [takePartReset_port]
    exact ⟨rfl, rfl, rfl, rfl, rfl, rfl⟩

/-! ### The exchange -/

/-- A command whose event is a reply alone gives the state with that reply at the port. -/
theorem exec_reply {i e : Instr} {g : State → State} {p : Port} {r : Reply} {h : HandOver} {s : State}
    (hi : exec i s = .next (commit e g s)) (hg : g s = s.reply p r h) : exec i s = .next (s.reply p r h) :=
  exec_plain hi hg (by simp [State.reply]) (by simp [State.reply])

theorem PortUnit.dataOut_reset {u : PortUnit} {n : Nat} (h : u.resetLine = true) : u.dataOut n = none := by
  simp [PortUnit.dataOut, h]

theorem PortUnit.dataOut_closed {u : PortUnit} {n : Nat} (h : u.resetLine = false) (hx : u.exchange = none) :
    u.dataOut n = some 0 := by
  simp [PortUnit.dataOut, h, hx]

theorem PortUnit.dataOut_open {u : PortUnit} {n : Nat} {x : Exchange} (h : u.resetLine = false)
    (hx : u.exchange = some x) : u.dataOut n = some (x.reply.bytes.getD n 0) := by
  simp [PortUnit.dataOut, h, hx]

/-- Settles O25: an exchange that ends changes its field alone, a bad header is a reply alone, and what is shifted out is
read off the reply's bytes. -/
theorem exchangeEvents : Obligations.ExchangeEvents := by
  refine ⟨?ends, ?malformed, ?unlisted, ?bytes⟩
  case ends =>
    intro s p
    exact ⟨exec_plain (g := takeExchangeVoid p) rfl rfl (by simp) (by simp),
      exec_plain (g := takeExchangeEnd p) rfl rfl (by simp) (by simp)⟩
  case malformed =>
    intro s p header hr hm
    have ht : takeMalformedHeader p header s = s.replyRefused p .malformed := by simp [takeMalformedHeader, hr, hm]
    exact exec_reply rfl ht
  case unlisted =>
    intro s f code hr hc
    have ht : takeUnknownRequestCode f code s = s.replyRefused f.port .unknownCode := by
      simp [takeUnknownRequestCode, hr, hc]
    exact exec_reply rfl ht
  case bytes =>
    intro u n
    refine ⟨PortUnit.dataOut_reset, PortUnit.dataOut_closed, fun x hr hx => ?_⟩
    rw [PortUnit.dataOut_open hr hx]
    exact ⟨fun h => by simp [h], fun h => by simp [h]⟩

end Sys2Proof.Machine
end

section
/-! CERTIFICATES. The title requests: DEFINE TITLE (R2), STAGE BLOCK (R8, R9), RETIRE TITLE (R16) and ADD COPIES (R19). -/

namespace Sys2Proof.Machine

/-! ### DEFINE TITLE: its malformed check, and one equation per row of R2 -/

theorem kindOf_eq_none_iff {n : Nat} : kindOf n = none ↔ n ≠ 1 ∧ n ≠ 2 := by
  unfold kindOf
  split <;> simp_all

theorem parseDefinition_cart_eq_none_iff {payload : List Byte} (h : natOfBytes (slice 0 1 payload) = 1) :
    parseDefinition payload = none ↔
      natOfBytes (slice 2 2 payload) = 0 ∨
        (natOfBytes (slice 1 1 payload) ≠ 1 ∧ natOfBytes (slice 1 1 payload) ≠ 2) ∨
        natOfBytes (slice 4 2 payload) = 65535 ∨ natOfBytes (slice 6 2 payload) = 65535 := by
  simp only [parseDefinition, h, ← kindOf_eq_none_iff]
  split
  · simp only [true_iff]
    tauto
  · simp only [Option.map_eq_none_iff]
    tauto

theorem parseDefinition_vol_eq_none_iff {payload : List Byte} (h : natOfBytes (slice 0 1 payload) = 2) :
    parseDefinition payload = none ↔
      natOfBytes (slice 1 1 payload) < 1 ∨ 40 < natOfBytes (slice 1 1 payload) := by
  simp only [parseDefinition, h]
  split
  · simp only [reduceCtorEq, false_iff]
    omega
  · simp only [true_iff]
    omega

theorem parsePosted_defineTitle_eq_none_iff {key : Nat} {payload : List Byte} :
    parsePosted .defineTitle key payload = none ↔ key = 0 ∨ parseDefinition payload = none := by
  simp only [parsePosted]
  split <;> simp [*]

section
variable {n : Nat} {d : TitleDef} {s : State}

theorem applyDefineTitle_defined (h : (s.title n).isSome = true) :
    applyDefineTitle n d s = s.refuse .cp .defineTitle n .duplicate [] := by
  simp [applyDefineTitle, h]

theorem applyDefineTitle_tableFull (h : ¬(s.title n).isSome = true) (hfull : 4096 ≤ s.titles.length) :
    applyDefineTitle n d s = s.refuse .cp .defineTitle n .tableFull [] := by
  simp [applyDefineTitle, h, Config.maxTitles, hfull]

theorem applyDefineTitle_created (h : ¬(s.title n).isSome = true) (hroom : ¬4096 ≤ s.titles.length) :
    applyDefineTitle n d s = (s.saveTitle n (d.record s.dayCount)).endPosted .cp := by
  simp [applyDefineTitle, h, Config.maxTitles, hroom]

end

/-- Settles O1: the malformed check falls apart by medium; applied, the title's record and then the directory's length
decide between the two refusals and the new record. -/
theorem defineTitleApplied : Obligations.DefineTitleApplied := by
  refine ⟨fun key payload => ⟨fun h => ?_, fun h => ?_⟩, ?applied⟩
  · rw [parsePosted_defineTitle_eq_none_iff, parseDefinition_cart_eq_none_iff h]
  · rw [parsePosted_defineTitle_eq_none_iff, parseDefinition_vol_eq_none_iff h]
  case applied =>
    intro s f n d hp hs hf
    have taken : exec (.defineTitle f true) s =
        .next (commit (.defineTitle f true) (State.takePosted (PostedReq.defineTitle n d).code f true) s) := rfl
    have handed := State.taking_title .cp (.defineTitle n d) s n
    have table := State.taking_titles .cp (.defineTitle n d) s
    by_cases hdef : (s.title n).isSome = true
    · simp only [if_pos hdef]
      exact exec_postedRefused taken hp hs hf (applyDefineTitle_defined (by rwa [handed]))
    by_cases hfull : 4096 ≤ s.titles.length
    · simp only [if_neg hdef, if_pos hfull]
      exact exec_postedRefused taken hp hs hf (applyDefineTitle_tableFull (by rwa [handed]) (by rwa [table]))
    · simp only [if_neg hdef, if_neg hfull]
      have created := applyDefineTitle_created (d := d) (s := s.taking .cp (.defineTitle n d)) (n := n)
        (by rwa [handed]) (by rwa [table])
      cases d <;> exact exec_postedSaveTitle taken hp hs hf created

/-! ### STAGE BLOCK: one equation per row of R8 and R9 -/

/-- The staging writer asks first round the ring, or alone (R12). -/
theorem State.nextRequester_staging {s : State} (asks : s.requesting .staging = true)
    (hr : s.searchFrom = .staging ∨ (s.requesting .chanA = false ∧ s.requesting .chanB = false)) :
    s.nextRequester = some .staging := by
  unfold State.nextRequester
  rcases hr with hr | ⟨ha, hb⟩
  · simp [hr, asks]
  · cases s.searchFrom <;> simp [Requester.after, asks, ha, hb]

section
variable {n i : Nat} {bytes : List Byte} {w : Bool} {c : CartTitle} {s : State}

theorem applyStageBlock_undefined (h : s.title n = none) :
    applyStageBlock n i bytes s = s.refuse .cp .stageBlock n .unknownTitle [] := by
  simp [applyStageBlock, h]

theorem applyStageBlock_volume {v : VolTitle} (h : s.title n = some { withdrawing := w, body := .vol v }) :
    applyStageBlock n i bytes s = s.refuse .cp .stageBlock n .wrongState [] := by
  simp [applyStageBlock, h]

theorem applyStageBlock_notStaging (h : s.title n = some { withdrawing := w, body := .cart c }) (hc : c.state ≠ .staging) :
    applyStageBlock n i bytes s = s.refuse .cp .stageBlock n .wrongState [] := by
  simp [applyStageBlock, h, hc]

theorem applyStageBlock_badIndex (h : s.title n = some { withdrawing := w, body := .cart c }) (hc : c.state = .staging)
    (hi : i ≠ c.received) :
    applyStageBlock n i bytes s = s.refuse .cp .stageBlock n .badBlockIndex [c.received] := by
  simp [applyStageBlock, h, hc, hi]

/-- The staging title and the staging writer once a block has been summed and counted (R8, R9). -/
def State.stageBlock (n : Nat) (bytes : List Byte) (w : Bool) (c : CartTitle) (s : State) : State :=
  { s.putTitle n
      { withdrawing := w
        body := .cart
          { c with
            received := c.received + 1
            stagingSum := c.stagingSum.addBytes bytes
            idleTimer := if c.received + 1 < c.length then some (s.now + s.stagingIdleTime) else none } } with
    stagingWriter := some { title := n, storeBlock := c.storeBlock c.received, bytes := bytes, transferred := false } }

theorem applyStageBlock_handed (h : s.title n = some { withdrawing := w, body := .cart c }) (hc : c.state = .staging)
    (hi : i = c.received) : applyStageBlock n i bytes s = (s.stageBlock n bytes w c).arbitrate := by
  subst hi
  simp [applyStageBlock, h, hc, State.stageBlock]

/-- The title whose block the staging writer has is STAGING. -/
theorem State.stageBlock_isStaging (hc : c.state = .staging) : (s.stageBlock n bytes w c).isStaging n = true := by
  have found : (s.stageBlock n bytes w c).title n = some
      { withdrawing := w
        body := .cart
          { c with
            received := c.received + 1
            stagingSum := c.stagingSum.addBytes bytes
            idleTimer := if c.received + 1 < c.length then some (s.now + s.stagingIdleTime) else none } } :=
    Table.find_set_self ..
  simp [State.isStaging, found, hc]

/-- On a free store path the staging writer is the next of the ring: the search stands at it, or no channel asks (R12). -/
theorem State.stageBlock_next (hg : s.grant = none)
    (hr : s.searchFrom = .staging ∨ (s.chanA.activity ≠ .storeRequest ∧ s.chanB.activity ≠ .storeRequest)) :
    (s.stageBlock n bytes w c).nextRequester = some .staging := by
  refine State.nextRequester_staging ?_ (hr.imp id fun ⟨ha, hb⟩ => ⟨?_, ?_⟩)
  · simp [State.requesting, State.stageBlock, State.putTitle, hg]
  · simpa [State.requesting, State.stageBlock, State.putTitle] using ha
  · simpa [State.requesting, State.stageBlock, State.putTitle] using hb

theorem State.stageBlock_granted (hc : c.state = .staging) (hg : s.grant = none)
    (hr : s.searchFrom = .staging ∨ (s.chanA.activity ≠ .storeRequest ∧ s.chanB.activity ≠ .storeRequest)) :
    (s.stageBlock n bytes w c).arbitrate =
      { s.stageBlock n bytes w c with grant := some .staging, searchFrom := .chanA } :=
  State.arbitrate_staging hg (State.stageBlock_next hg hr) rfl (State.stageBlock_isStaging hc)

end

/-- Settles O3: the title's record and the index decide between the refusals and the hand-over to the staging writer, and
the store path between its wait and its grant. -/
theorem stageBlockApplied : Obligations.StageBlockApplied := by
  intro s f n i bytes hp hs hf
  have taken : exec (.stageBlock f true) s =
      .next (commit (.stageBlock f true) (State.takePosted (PostedReq.stageBlock n i bytes).code f true) s) := rfl
  have handed := State.taking_title .cp (.stageBlock n i bytes) s n
  refine ⟨fun h => exec_postedRefused taken hp hs hf (applyStageBlock_undefined (handed.trans h)),
    fun w v h => exec_postedRefused taken hp hs hf (applyStageBlock_volume (handed.trans h)), fun w c h => ?_⟩
  replace h := handed.trans h
  refine ⟨fun hc => exec_postedRefused taken hp hs hf (applyStageBlock_notStaging h hc),
    fun hc hi => exec_postedRefused taken hp hs hf (applyStageBlock_badIndex h hc hi), fun hc hi => ?_⟩
  have applied := applyStageBlock_handed (bytes := bytes) h hc hi
  refine ⟨fun hg => ?_, fun hg hr => ?_⟩
  · have waits := State.arbitrate_busy (s := (s.taking .cp (.stageBlock n i bytes)).stageBlock n bytes w c) hg
    exact exec_posted taken hp hs hf (applied.trans waits) (State.free_room hs).le rfl
  · have granted := State.stageBlock_granted (n := n) (bytes := bytes) (w := w)
      (s := s.taking .cp (.stageBlock n i bytes)) hc hg hr
    exact exec_posted taken hp hs hf (applied.trans granted) (State.free_room hs).le rfl

/-! ### RETIRE TITLE: one equation per row of R16 -/

section
variable {n : Nat} {t : Title} {s : State}

theorem applyRetireTitle_undefined (h : s.title n = none) :
    applyRetireTitle n s = s.refuse .cp .retireTitle n .unknownTitle [] := by
  simp [applyRetireTitle, h]

theorem applyRetireTitle_retiring {w : Bool} {c : CartTitle} (h : s.title n = some { withdrawing := w, body := .cart c })
    (hc : c.state = .retiring) : applyRetireTitle n s = s.refuse .cp .retireTitle n .wrongState [] := by
  simp [applyRetireTitle, h, hc]

theorem applyRetireTitle_walk (h : s.title n = some t) (hc : ∀ c, t.body = .cart c → c.state ≠ .retiring) :
    applyRetireTitle n s =
      { s.putTitle n { t with withdrawing := true } with walk := some { title := n, next := 0, changed := 0 } } := by
  obtain ⟨w, body⟩ := t
  cases body with
  | cart c => simp [applyRetireTitle, h, hc c rfl]
  | vol v => simp [applyRetireTitle, h]

end

/-- Settles O4: the title's record decides between the two refusals and the start of the walk. -/
theorem retireTitleApplied : Obligations.RetireTitleApplied := by
  intro s f n hp hs hf
  have taken : exec (.retireTitle f true) s =
      .next (commit (.retireTitle f true) (State.takePosted (PostedReq.retireTitle n).code f true) s) := rfl
  have handed := State.taking_title .cp (.retireTitle n) s n
  exact ⟨fun h => exec_postedRefused taken hp hs hf (applyRetireTitle_undefined (handed.trans h)),
    fun w c h hc => exec_postedRefused taken hp hs hf (applyRetireTitle_retiring (handed.trans h) hc),
    fun t h hc => exec_posted taken hp hs hf (applyRetireTitle_walk (handed.trans h) hc) (State.free_room hs).le rfl⟩

/-! ### ADD COPIES: one equation per row of R19 -/

section
variable {n count : Nat} {w : Bool} {s : State}

theorem applyAddCopies_undefined (h : s.title n = none) :
    applyAddCopies n count s = s.refuse .cp .addCopies n .unknownTitle [] := by
  simp [applyAddCopies, h]

theorem applyAddCopies_cart {c : CartTitle} (h : s.title n = some { withdrawing := w, body := .cart c }) :
    applyAddCopies n count s = s.refuse .cp .addCopies n .wrongState [] := by
  simp [applyAddCopies, h]

theorem applyAddCopies_limit {v : VolTitle} (h : s.title n = some { withdrawing := w, body := .vol v })
    (hl : 63 < v.owned + count) : applyAddCopies n count s = s.refuse .cp .addCopies n .copiesLimit [v.owned] := by
  simp [applyAddCopies, h, Config.maxCopies, hl]

theorem applyAddCopies_added {v : VolTitle} (h : s.title n = some { withdrawing := w, body := .vol v })
    (hl : ¬63 < v.owned + count) :
    applyAddCopies n count s =
      ((s.saveTitle n
        { withdrawing := w
          body := .vol { v with owned := v.owned + count, onShelf := v.onShelf + count } }).trigger).endPosted .cp := by
  simp [applyAddCopies, h, Config.maxCopies, hl]

end

/-- Settles O5: the title's record and the total decide between the three refusals and the raised counts. -/
theorem addCopiesApplied : Obligations.AddCopiesApplied := by
  refine ⟨fun key payload h => by simp [parsePosted, h], fun s f n count hp hs hf => ?_⟩
  have taken : exec (.addCopies f true) s =
      .next (commit (.addCopies f true) (State.takePosted (PostedReq.addCopies n count).code f true) s) := rfl
  have handed := State.taking_title .cp (.addCopies n count) s n
  match h : s.title n with
  | none => exact exec_postedRefused taken hp hs hf (applyAddCopies_undefined (handed.trans h))
  | some { body := .cart _, .. } => exact exec_postedRefused taken hp hs hf (applyAddCopies_cart (handed.trans h))
  | some { body := .vol v, .. } =>
    by_cases hl : 63 < v.owned + count
    · simp only [if_pos hl]
      exact exec_postedRefused taken hp hs hf (applyAddCopies_limit (handed.trans h) hl)
    · simp only [if_neg hl]
      exact exec_postedApplied taken hp hs hf (applyAddCopies_added (handed.trans h) hl) rfl
        (by simpa using State.free_room hs) (by simp)

end Sys2Proof.Machine
end

section
/-! CERTIFICATES. Patrons: AMEND PATRON (R27) and REMOVE PATRON (R28). -/

namespace Sys2Proof.Machine

/-! ### AMEND PATRON: one equation per row of R27 -/

section
variable {number allowance slot : Nat} {r : RouteNo} {hold : Bool} {p : Patron} {s : State}

theorem applyAmendPatron_notEnrolled (h : s.reader number = none) :
    applyAmendPatron number allowance r hold s = s.refuse .cp .amendPatron number .unknownPatron [] := by
  simp [applyAmendPatron, h]

theorem applyAmendPatron_unchanged (h : s.reader number = some (slot, p))
    (hp : p.allowance = allowance ∧ p.route = r ∧ p.hold = hold) :
    applyAmendPatron number allowance r hold s = s.endPosted .cp := by
  obtain ⟨rfl, rfl, rfl⟩ := hp
  simp [applyAmendPatron, h]

/-- The reader as amended, with the trigger of a hold cleared or an allowance raised (R27). -/
def State.amended (slot : Nat) (p : Patron) (allowance : Nat) (r : RouteNo) (hold : Bool) (s : State) : State :=
  let t := s.savePatron slot { p with allowance := allowance, route := r, hold := hold }
  if (p.hold = true ∧ hold = false) ∨ p.allowance < allowance then t.trigger else t

theorem applyAmendPatron_changed (h : s.reader number = some (slot, p))
    (hp : ¬(p.allowance = allowance ∧ p.route = r ∧ p.hold = hold)) :
    applyAmendPatron number allowance r hold s = (s.amended slot p allowance r hold).endPosted .cp := by
  have differs : { p with allowance := allowance, route := r, hold := hold } ≠ p := by
    rintro same
    exact hp ⟨congrArg Patron.allowance same.symm, congrArg Patron.route same.symm, congrArg Patron.hold same.symm⟩
  simp [applyAmendPatron, h, differs, State.amended]

theorem State.amended_taking (q : PostedReq) :
    (s.taking .cp q).amended slot p allowance r hold = (s.amended slot p allowance r hold).taking .cp q := by
  unfold State.amended
  simp only
  split <;> rfl

theorem State.amended_unit : (s.amended slot p allowance r hold).bays = s.bays ∧
    (s.amended slot p allowance r hold).writeQueue.length = s.writeQueue.length + 1 := by
  unfold State.amended
  simp only
  split <;> simp

end

/-- Settles O8: the reader's record decides between the refusal, no change at all, and the amended record. -/
theorem amendPatronApplied : Obligations.AmendPatronApplied := by
  intro s f number allowance r hold hp hs hf
  have taken : exec (.amendPatron f true) s = .next (commit (.amendPatron f true)
      (State.takePosted (PostedReq.amendPatron number allowance r hold).code f true) s) := rfl
  have handed := State.taking_reader .cp (.amendPatron number allowance r hold) s number
  refine ⟨fun h => exec_postedRefused taken hp hs hf (applyAmendPatron_notEnrolled (handed.trans h)), fun slot p h => ?_⟩
  refine ⟨fun same => exec_postedNoEffect taken hp hs hf (applyAmendPatron_unchanged (handed.trans h) same),
    fun differs => ?_⟩
  obtain ⟨bays, units⟩ := State.amended_unit (slot := slot) (p := p) (allowance := allowance) (r := r) (hold := hold)
    (s := s)
  exact exec_postedApplied taken hp hs hf (applyAmendPatron_changed (handed.trans h) differs) (State.amended_taking _)
    (units ▸ State.free_room hs) bays

/-! ### REMOVE PATRON: one equation per row of R28 -/

section
variable {number slot : Nat} {p : Patron} {s : State}

theorem applyRemovePatron_notEnrolled (h : s.reader number = none) :
    applyRemovePatron number s = s.refuse .cp .removePatron number .unknownPatron [] := by
  simp [applyRemovePatron, h]

theorem applyRemovePatron_freed (h : s.reader number = some (slot, p)) (hp : p.loansOut = 0 ∧ p.returnsOpen = 0) :
    applyRemovePatron number s =
      (State.hand [.patron slot none] { s with patrons := Table.erase slot s.patrons }).endPosted .cp := by
  simp [applyRemovePatron, h, hp]

theorem applyRemovePatron_loansOut (h : s.reader number = some (slot, p)) (hp : ¬(p.loansOut = 0 ∧ p.returnsOpen = 0)) :
    applyRemovePatron number s = s.refuse .cp .removePatron number .loansOut [p.loansOut, p.returnsOpen] := by
  have out : 0 < p.loansOut ∨ 0 < p.returnsOpen := by omega
  simp only [applyRemovePatron, h, if_pos out]

end

/-- Settles O9: the reader's record decides between the two refusals and the freed slot. -/
theorem removePatronApplied : Obligations.RemovePatronApplied := by
  intro s f number hp hs hf
  have taken : exec (.removePatron f true) s =
      .next (commit (.removePatron f true) (State.takePosted (PostedReq.removePatron number).code f true) s) := rfl
  have handed := State.taking_reader .cp (.removePatron number) s number
  match h : s.reader number with
  | none => exact exec_postedRefused taken hp hs hf (applyRemovePatron_notEnrolled (handed.trans h))
  | some (slot, p) =>
    by_cases none : p.loansOut = 0 ∧ p.returnsOpen = 0
    · simp only [if_pos none]
      exact exec_postedApplied taken hp hs hf (applyRemovePatron_freed (handed.trans h) none) rfl
        (by simpa using State.free_room hs) rfl
    · simp only [if_neg none]
      exact exec_postedRefused taken hp hs hf (applyRemovePatron_loansOut (handed.trans h) none)

end Sys2Proof.Machine
end

section
/-! CERTIFICATES. The loan requests that end a loan or move it on: CANCEL LOAN of a volume loan (R55), DECLARE LOST (R56),
PICKED and PICK FAILED (R48, R49), SHELVE and WITHDRAW COPY (R54). -/

namespace Sys2Proof.Machine

/-! ### CANCEL LOAN: its refusals, and the cancel of a volume loan -/

section
variable {tag : Nat} {l : Loan} {s : State}

theorem applyCancelLoan_unknown (h : s.loan tag = none) :
    applyCancelLoan tag s = s.refuse .cp .cancelLoan tag .unknownLoan [] := by
  simp [applyCancelLoan, h]

theorem applyCancelLoan_tooLate (h : s.loan tag = some l) (hl : l.state = .bagged) :
    applyCancelLoan tag s = s.refuse .cp .cancelLoan tag .tooLate [] := by
  simp [applyCancelLoan, h, hl]

theorem applyCancelLoan_wrongState (h : s.loan tag = some l)
    (hl : l.state = .mailed ∨ l.state = .overdue ∨ l.state = .returning) :
    applyCancelLoan tag s = s.refuse .cp .cancelLoan tag .wrongState [] := by
  rcases hl with hl | hl | hl <;> simp [applyCancelLoan, h, hl]

theorem applyCancelLoan_cancelled (h : s.loan tag = some l)
    (hl : l.state = .planned ∨ l.state = .copying ∨ l.state = .written ∨ l.state = .picked) :
    applyCancelLoan tag s = (s.cancel tag l).endPosted .cp := by
  rcases hl with hl | hl | hl | hl <;> simp [applyCancelLoan, h, hl]

/-- RESHELVE names the place of the volume title (R55). -/
theorem State.notifyReshelve_volume {n : Nat} {w : Bool} {v : VolTitle}
    (h : s.title n = some { withdrawing := w, body := .vol v }) :
    s.notifyReshelve tag n = s.notify .fp (note .reshelve tag [n, v.location]) := by
  simp [State.notifyReshelve, h]

@[simp] theorem State.closeLoan_title (n : Nat) (u : WriteUnit) : (s.closeLoan tag u).title n = s.title n := by
  rw [State.closeLoan_eq]
  rfl

@[simp] theorem State.closeLoan_copyQueue (u : WriteUnit) : (s.closeLoan tag u).copyQueue = s.copyQueue := by
  rw [State.closeLoan_eq]

/-- The cancel of a volume loan: one set back on the shelf, the loan closed, the decrease handed over (R55). -/
def State.cancelledVolume (tag : Nat) (l : Loan) (w : Bool) (v : VolTitle) (s : State) : State :=
  let t : Title := { withdrawing := w, body := .vol { v with onShelf := v.onShelf + 1 } }
  (((((s.putTitle l.firstTitle t).closeLoan tag [.title l.firstTitle (some t.kept)]).trigger).notify .fp
    (note .reshelve tag [l.firstTitle, v.location])).handDecrease l.patron).notify .cp
    (note .cancelled tag [l.patron, l.state.number])

theorem State.cancel_volume {w : Bool} {v : VolTitle} (hm : l.medium = .volume)
    (h : s.title l.firstTitle = some { withdrawing := w, body := .vol v }) (hn : s.noneReady) :
    s.cancel tag l = s.cancelledVolume tag l w v := by
  have shelved : ∀ (t : Title) (u : WriteUnit),
      (((s.putTitle l.firstTitle t).closeLoan tag u).trigger).title l.firstTitle = some t := fun t u =>
    (State.closeLoan_title _ _).trans (Table.find_set_self _ _ _)
  have idle : (s.cancelledVolume tag l w v).noneReady :=
    State.noneReady_congr hn (by simp [State.cancelledVolume, State.handDecrease])
  simp only [State.cancel, hm, State.changeCopies_volume h, State.notifyReshelve_volume (shelved _ _)]
  exact State.handOver_noneReady idle

theorem State.cancelledVolume_taking (q : PostedReq) (w : Bool) (v : VolTitle) :
    (s.taking .cp q).cancelledVolume tag l w v = (s.cancelledVolume tag l w v).taking .cp q := by
  simp only [State.cancelledVolume, State.putTitle_taking, State.closeLoan_taking, State.triggered_taking,
    State.notify_taking, State.handDecrease_taking]

end

/-- Settles O12: the loan's state decides between the three refusals and the cancel, which for a volume loan leaves no job
to hand over. -/
theorem cancelVolumeLoan : Obligations.CancelVolumeLoan := by
  intro s f tag hp hs hf
  have taken : exec (.cancelLoan f true) s =
      .next (commit (.cancelLoan f true) (State.takePosted (PostedReq.cancelLoan tag).code f true) s) := rfl
  have handed := State.taking_loan .cp (.cancelLoan tag) s tag
  refine ⟨fun h => exec_postedRefused taken hp hs hf (applyCancelLoan_unknown (handed.trans h)),
    fun l h hl => exec_postedRefused taken hp hs hf (applyCancelLoan_tooLate (handed.trans h) hl),
    fun l h hl => exec_postedRefused taken hp hs hf (applyCancelLoan_wrongState (handed.trans h) hl),
    fun l w v h hm hl ht hn => ?_⟩
  have cancelled := applyCancelLoan_cancelled (handed.trans h) (by tauto)
  rw [State.cancel_volume hm ((State.taking_title ..).trans ht)
    (State.noneReady_congr hn (State.taking_copyQueue ..))] at cancelled
  exact exec_postedApplied taken hp hs hf cancelled (State.cancelledVolume_taking _ w v)
    (by simpa [State.cancelledVolume] using State.free_room hs) (by simp)

/-! ### DECLARE LOST: one equation per row of R56 -/

section
variable {tag : Nat} {l : Loan} {s : State}

theorem applyDeclareLost_unknown (h : s.loan tag = none) :
    applyDeclareLost tag s = s.refuse .cp .declareLost tag .unknownLoan [] := by
  simp [applyDeclareLost, h]

theorem applyDeclareLost_wrongState (h : s.loan tag = some l) (hm : l.state ≠ .mailed) (ho : l.state ≠ .overdue) :
    applyDeclareLost tag s = s.refuse .cp .declareLost tag .wrongState [] := by
  simp [applyDeclareLost, h, hm, ho]

theorem applyDeclareLost_cartridge (h : s.loan tag = some l) (hl : l.state = .mailed ∨ l.state = .overdue)
    (hm : l.medium = .cartridge) :
    applyDeclareLost tag s = (((s.closeLoan tag []).handDecrease l.patron).notify .cp
      (noteFor .loanClosed tag .lost [l.patron, l.state.number])).endPosted .cp := by
  simp [applyDeclareLost, h, hl, hm, State.notifyClosed]

theorem applyDeclareLost_volume {w : Bool} {v : VolTitle} (h : s.loan tag = some l)
    (hl : l.state = .mailed ∨ l.state = .overdue) (hm : l.medium = .volume)
    (ht : s.title l.firstTitle = some { withdrawing := w, body := .vol v }) :
    applyDeclareLost tag s =
      (let t : Title := { withdrawing := w, body := .vol { v with owned := v.owned - 1 } }
       (((s.putTitle l.firstTitle t).closeLoan tag [.title l.firstTitle (some t.kept)]).handDecrease l.patron).notify
        .cp (noteFor .loanClosed tag .lost [l.patron, l.state.number])).endPosted .cp := by
  simp [applyDeclareLost, h, hl, hm, State.changeCopies_volume ht, State.notifyClosed]

end

/-- Settles O14: the loan's state decides between the two refusals and the close, and its medium what the close takes with
it. -/
theorem declareLostApplied : Obligations.DeclareLostApplied := by
  intro s f tag hp hs hf
  have taken : exec (.declareLost f true) s =
      .next (commit (.declareLost f true) (State.takePosted (PostedReq.declareLost tag).code f true) s) := rfl
  have handed := State.taking_loan .cp (.declareLost tag) s tag
  have room := State.free_room hs
  refine ⟨fun h => exec_postedRefused taken hp hs hf (applyDeclareLost_unknown (handed.trans h)),
    fun l h hm ho => exec_postedRefused taken hp hs hf (applyDeclareLost_wrongState (handed.trans h) hm ho),
    fun l h hl hm => ?_, fun l w v h hl hm ht => ?_⟩
  · exact exec_postedApplied taken hp hs hf (applyDeclareLost_cartridge (handed.trans h) hl hm)
      (by simp only [State.closeLoan_taking, State.handDecrease_taking, State.notify_taking])
      (by simpa using room) (by simp)
  · exact exec_postedApplied taken hp hs hf
      (applyDeclareLost_volume (handed.trans h) hl hm ((State.taking_title ..).trans ht))
      (by simp only [State.putTitle_taking, State.closeLoan_taking, State.handDecrease_taking, State.notify_taking])
      (by simpa using room) (by simp)

/-! ### PICKED and PICK FAILED: one equation per row of R48 and R49 -/

section
variable {tag : Nat} {l : Loan} {s : State}

theorem applyPicked_unknown (h : s.loan tag = none) :
    applyPicked tag s = s.refuse .fp .picked tag .unknownLoan [] := by
  simp [applyPicked, h]

theorem applyPicked_picked (h : s.loan tag = some l) (hl : l.medium = .volume ∧ l.state = .planned) :
    applyPicked tag s = (s.saveLoan tag { l with state := .picked }).endPosted .fp := by
  simp [applyPicked, h, hl]

theorem applyPicked_wrongState (h : s.loan tag = some l) (hl : ¬(l.medium = .volume ∧ l.state = .planned)) :
    applyPicked tag s = s.refuse .fp .picked tag .wrongState [l.state.number] := by
  simp only [applyPicked, h, if_neg hl]

theorem applyPickFailed_unknown (h : s.loan tag = none) :
    applyPickFailed tag s = s.refuse .fp .pickFailed tag .unknownLoan [] := by
  simp [applyPickFailed, h]

theorem applyPickFailed_wrongState (h : s.loan tag = some l) (hl : ¬(l.medium = .volume ∧ l.state = .planned)) :
    applyPickFailed tag s = s.refuse .fp .pickFailed tag .wrongState [l.state.number] := by
  simp only [applyPickFailed, h, if_neg hl]

/-- A pick that failed: one copy fewer, the loan closed, the restoration of its title handed over (R49). -/
def State.pickFailed (tag : Nat) (l : Loan) (w : Bool) (v : VolTitle) (s : State) : State :=
  let t : Title := { withdrawing := w, body := .vol { v with owned := v.owned - 1 } }
  let u := (s.putTitle l.firstTitle t).closeLoan tag [.title l.firstTitle (some t.kept)]
  State.notify .cp (noteFor .loanClosed tag .pickFailed [l.patron, l.firstTitle])
    { u with restorations := u.restorations ++ [{ patron := l.patron, titles := l.titles.map PlanEntry.title }] }

theorem applyPickFailed_closed {w : Bool} {v : VolTitle} (h : s.loan tag = some l) (hm : l.medium = .volume)
    (hl : l.state = .planned) (ht : s.title l.firstTitle = some { withdrawing := w, body := .vol v }) :
    applyPickFailed tag s = (s.pickFailed tag l w v).endPosted .fp := by
  simp only [applyPickFailed, h, if_pos (And.intro hm hl), State.changeCopies_volume ht]
  rfl

theorem State.pickFailed_taking (q : PostedReq) (w : Bool) (v : VolTitle) :
    (s.taking .fp q).pickFailed tag l w v = (s.pickFailed tag l w v).taking .fp q := by
  simp only [State.pickFailed, State.putTitle_taking, State.closeLoan_taking, ← State.notify_taking]
  rfl

end

/-- Settles O15: the loan's medium and state decide between the refusals, the pick and the close. -/
theorem pickedAndPickFailedApplied : Obligations.PickedAndPickFailedApplied := by
  intro s tag hs
  have room := State.free_room hs
  refine ⟨fun f hp hf => ?picked, fun f hp hf => ?failed⟩
  case picked =>
    have taken : exec (.picked f true) s =
        .next (commit (.picked f true) (State.takePosted (PostedReq.picked tag).code f true) s) := rfl
    have handed := State.taking_loan .fp (.picked tag) s tag
    match h : s.loan tag with
    | none => exact exec_postedRefused taken hp hs hf (applyPicked_unknown (handed.trans h))
    | some l =>
      by_cases hl : l.medium = .volume ∧ l.state = .planned
      · simp only [if_pos hl]
        exact exec_postedApplied taken hp hs hf (applyPicked_picked (handed.trans h) hl) (State.saveLoan_taking ..)
          (by simpa using room) (by simp)
      · simp only [if_neg hl]
        exact exec_postedRefused taken hp hs hf (applyPicked_wrongState (handed.trans h) hl)
  case failed =>
    have taken : exec (.pickFailed f true) s =
        .next (commit (.pickFailed f true) (State.takePosted (PostedReq.pickFailed tag).code f true) s) := rfl
    have handed := State.taking_loan .fp (.pickFailed tag) s tag
    refine ⟨fun h => exec_postedRefused taken hp hs hf (applyPickFailed_unknown (handed.trans h)),
      fun l h hl => exec_postedRefused taken hp hs hf (applyPickFailed_wrongState (handed.trans h) hl),
      fun l w v h hm hl ht => ?_⟩
    exact exec_postedApplied taken hp hs hf
      (applyPickFailed_closed (handed.trans h) hm hl ((State.taking_title ..).trans ht)) (State.pickFailed_taking _ w v)
      (by simpa [State.pickFailed] using room) (by simp)

/-! ### SHELVE and WITHDRAW COPY: one equation per row of R54 -/

section
variable {tag : Nat} {l : Loan} {s : State}

theorem applyShelve_unknown (h : s.loan tag = none) :
    applyShelve tag s = s.refuse .fp .shelve tag .unknownLoan [] := by
  simp [applyShelve, h]

theorem applyShelve_wrongState (h : s.loan tag = some l) (hl : ¬(l.medium = .volume ∧ l.state = .returning)) :
    applyShelve tag s = s.refuse .fp .shelve tag .wrongState [] := by
  simp only [applyShelve, h, if_neg hl]

theorem applyShelve_shelved {w : Bool} {v : VolTitle} (h : s.loan tag = some l) (hm : l.medium = .volume)
    (hl : l.state = .returning) (ht : s.title l.firstTitle = some { withdrawing := w, body := .vol v }) :
    applyShelve tag s =
      (let t : Title := { withdrawing := w, body := .vol { v with onShelf := v.onShelf + 1 } }
       ((((s.putTitle l.firstTitle t).closeLoan tag [.title l.firstTitle (some t.kept)]).lowerReturnsOpen
         l.patron).notify .cp (noteFor .loanClosed tag .shelved [l.patron, l.medium.number])).trigger).endPosted .fp := by
  simp [applyShelve, h, hm, hl, State.changeCopies_volume ht, State.notifyClosed]

theorem applyWithdrawCopy_unknown (h : s.loan tag = none) :
    applyWithdrawCopy tag s = s.refuse .fp .withdrawCopy tag .unknownLoan [] := by
  simp [applyWithdrawCopy, h]

theorem applyWithdrawCopy_wrongState (h : s.loan tag = some l) (hl : ¬(l.medium = .volume ∧ l.state = .returning)) :
    applyWithdrawCopy tag s = s.refuse .fp .withdrawCopy tag .wrongState [] := by
  simp only [applyWithdrawCopy, h, if_neg hl]

theorem applyWithdrawCopy_withdrawn {w : Bool} {v : VolTitle} (h : s.loan tag = some l) (hm : l.medium = .volume)
    (hl : l.state = .returning) (ht : s.title l.firstTitle = some { withdrawing := w, body := .vol v }) :
    applyWithdrawCopy tag s =
      (let t : Title := { withdrawing := w, body := .vol { v with owned := v.owned - 1 } }
       (((s.putTitle l.firstTitle t).closeLoan tag [.title l.firstTitle (some t.kept)]).lowerReturnsOpen
         l.patron).notify .cp (noteFor .loanClosed tag .withdrawn [l.patron, l.firstTitle])).endPosted .fp := by
  simp [applyWithdrawCopy, h, hm, hl, State.changeCopies_volume ht, State.notifyClosed]

end

/-- Settles O16: the loan's medium and state decide between the refusals and the close, for either request. -/
theorem shelveAndWithdrawCopyApplied : Obligations.ShelveAndWithdrawCopyApplied := by
  intro s tag hs
  have room := State.free_room hs
  refine ⟨fun f hp hf => ?shelve, fun f hp hf => ?withdraw⟩
  case shelve =>
    have taken : exec (.shelve f true) s =
        .next (commit (.shelve f true) (State.takePosted (PostedReq.shelve tag).code f true) s) := rfl
    have handed := State.taking_loan .fp (.shelve tag) s tag
    refine ⟨fun h => exec_postedRefused taken hp hs hf (applyShelve_unknown (handed.trans h)),
      fun l h hl => exec_postedRefused taken hp hs hf (applyShelve_wrongState (handed.trans h) hl),
      fun l w v h hm hl ht => ?_⟩
    exact exec_postedApplied taken hp hs hf
      (applyShelve_shelved (handed.trans h) hm hl ((State.taking_title ..).trans ht))
      (by simp only [State.putTitle_taking, State.closeLoan_taking, State.lowerReturnsOpen_taking, State.notify_taking,
        State.triggered_taking])
      (by simpa using room) (by simp)
  case withdraw =>
    have taken : exec (.withdrawCopy f true) s =
        .next (commit (.withdrawCopy f true) (State.takePosted (PostedReq.withdrawCopy tag).code f true) s) := rfl
    have handed := State.taking_loan .fp (.withdrawCopy tag) s tag
    refine ⟨fun h => exec_postedRefused taken hp hs hf (applyWithdrawCopy_unknown (handed.trans h)),
      fun l h hl => exec_postedRefused taken hp hs hf (applyWithdrawCopy_wrongState (handed.trans h) hl),
      fun l w v h hm hl ht => ?_⟩
    exact exec_postedApplied taken hp hs hf
      (applyWithdrawCopy_withdrawn (handed.trans h) hm hl ((State.taking_title ..).trans ht))
      (by simp only [State.putTitle_taking, State.closeLoan_taking, State.lowerReturnsOpen_taking, State.notify_taking])
      (by simpa using room) (by simp)

end Sys2Proof.Machine
end

section
/-! SUPPORT. More operations go past the hand-over of a posted request; a bay changed within its state; and a request
accepted into the empty queue of a port in any mode. -/

namespace Sys2Proof.Machine

section
variable (p : Port) (q : PostedReq) (s : State)

@[simp] theorem State.taking_bay (b : BayNo) : (s.taking p q).bay b = s.bay b := by cases p <;> rfl

@[simp] theorem State.taking_bin (r : RouteNo) : (s.taking p q).bin r = s.bin r := by cases p <;> rfl

@[simp] theorem State.taking_recog : (s.taking p q).recog = s.recog := by cases p <;> rfl

@[simp] theorem State.taking_mode : (s.taking p q).mode = s.mode := by cases p <;> rfl

@[simp] theorem State.taking_setting (n : Nat) : (s.taking p q).setting n = s.setting n := by cases p <;> rfl

@[simp] theorem State.taking_settings : (s.taking p q).settings = s.settings := by cases p <;> rfl

theorem State.setBay_taking (b : BayNo) (x : Bay) : (s.taking p q).setBay b x = (s.setBay b x).taking p q := by
  cases p <;> rfl

theorem State.saveBin_taking (r : RouteNo) (x : Bin) : (s.taking p q).saveBin r x = (s.saveBin r x).taking p q := by
  cases p <;> rfl

theorem State.handed_taking (u : WriteUnit) : (s.taking p q).hand u = (s.hand u).taking p q := by cases p <;> rfl

@[simp] theorem State.saveBin_writeQueue (r : RouteNo) (x : Bin) :
    (s.saveBin r x).writeQueue = s.writeQueue ++ [[.bin r x.kept]] := rfl

@[simp] theorem State.saveBin_bays (r : RouteNo) (x : Bin) : (s.saveBin r x).bays = s.bays := rfl

end

/-- The state of a port with an empty queue in which a posted request has been accepted, handed over and taken, whatever
the mode (R171, R172). -/
theorem State.queue_idle {p : Port} {s : State} (q : PostedReq) (hp : (s.port p).posted = [])
    (ha : (s.port p).applying = false) (hc : p = .cp → s.scan = none) :
    s.queue p q true = State.applyHead p (s.taking p q) := by
  cases p with
  | cp =>
    simp only [State.port] at hp ha
    simp [State.queue, State.port, hp, Config.maxPosted, State.startPosted, State.handHead, PortUnit.handHead,
      State.reply, State.setPort, ha, hc rfl, State.taking, acceptedExchange]
  | fp =>
    simp only [State.port] at hp ha
    simp [State.queue, State.port, hp, Config.maxPosted, State.startPosted, State.handHead, PortUnit.handHead,
      State.reply, State.setPort, ha, State.taking, acceptedExchange]

end Sys2Proof.Machine
end

section
/-! CERTIFICATES. Floor requests of the bays, bins and returns: EJECT BAY (R106), BAG REPLACED (R148), ROUTE OFF and
ROUTE ON (R149), REJECT CONTAINER (R165, R166). -/

namespace Sys2Proof.Machine

/-! ### EJECT BAY: one equation per row of R106 -/

section
variable {b : BayNo} {s : State}

theorem applyEjectBay_pulsed
    (h : (s.bay b).state = .blank ∨ (s.bay b).state = .written ∨ (s.bay b).state = .rejected) :
    applyEjectBay b s = (s.pulse b).endPosted .fp := by
  rcases h with h | h | h <;> simp [applyEjectBay, h]

theorem applyEjectBay_reserved {tag : Nat} (h : (s.bay b).state = .reserved) (ht : (s.bay b).tag = some tag) :
    applyEjectBay b s = s.refuse .fp .ejectBay b.val .reserved [tag] := by
  simp [applyEjectBay, h, ht, orZero]

theorem applyEjectBay_busy
    (h : (s.bay b).state = .identifying ∨ (s.bay b).state = .writing ∨ (s.bay b).state = .verifying ∨
      (s.bay b).state = .tagging ∨ (s.bay b).state = .erasing) :
    applyEjectBay b s = s.refuse .fp .ejectBay b.val .busy [] := by
  rcases h with h | h | h | h | h <;> simp [applyEjectBay, h]

theorem applyEjectBay_empty (h : (s.bay b).state = .empty) :
    applyEjectBay b s = s.refuse .fp .ejectBay b.val .wrongState [] := by
  simp [applyEjectBay, h]

theorem State.pulse_taking (q : PostedReq) : (s.taking .fp q).pulse b = (s.pulse b).taking .fp q := rfl

/-- The latch drive pulsed keeps the bay's state, and so every lamp code (R91). -/
theorem State.pulse_lamp : lampWord (s.pulse b).bays = lampWord s.bays := lampWord_setBay rfl

end

/-- Settles O20: the bay's state decides between the pulse and the refusals; the pulse changes no lamp code. -/
theorem ejectBayApplied : Obligations.EjectBayApplied := by
  intro s f b hp hs hf
  have taken : exec (.ejectBay f true) s =
      .next (commit (.ejectBay f true) (State.takePosted (PostedReq.ejectBay b).code f true) s) := rfl
  have handed := State.taking_bay .fp (.ejectBay b) s b
  simp only [← handed]
  refine ⟨fun h => ?_, fun tag h ht => exec_postedRefused taken hp hs hf (applyEjectBay_reserved h ht),
    fun h => exec_postedRefused taken hp hs hf (applyEjectBay_busy h),
    fun h => exec_postedRefused taken hp hs hf (applyEjectBay_empty h)⟩
  have pulsed := exec_postedAppliedLamp taken hp hs hf (applyEjectBay_pulsed h) (State.pulse_taking _)
    (State.free_room hs).le
  rwa [lampAfter_word (by simpa using State.pulse_lamp)] at pulsed

/-! ### BAG REPLACED, ROUTE OFF and ROUTE ON: one equation per row of R148 and R149 -/

section
variable {r : RouteNo} {s : State}

theorem parsePosted_bagReplaced_outside {key : Nat} (payload : List Byte) (h : 31 < key) :
    parsePosted .bagReplaced key payload = none := by
  simp [parsePosted, routed, routeOf_eq_none_iff.mpr h]

theorem applyBagReplaced_closed (h : (s.bin r).state = .closed) :
    applyBagReplaced r s = (s.saveBin r .fresh).endPosted .fp := by
  simp [applyBagReplaced, h]

theorem applyBagReplaced_refused (h : (s.bin r).state ≠ .closed) :
    applyBagReplaced r s = s.refuse .fp .bagReplaced r.val .wrongState [(s.bin r).state.number] := by
  cases hb : (s.bin r).state with
  | closed => exact absurd hb h
  | off => simp [applyBagReplaced, hb]
  | _ => simp [applyBagReplaced, hb]

theorem applyRouteOff_notEmpty (h : (s.bin r).list ≠ []) :
    applyRouteOff r s = s.refuse .fp .routeOff r.val .notEmpty [(s.bin r).list.length] := by
  simp [applyRouteOff, h]

theorem applyRouteOff_off (h : (s.bin r).list = []) (hb : (s.bin r).state = .off) :
    applyRouteOff r s = s.refuse .fp .routeOff r.val .wrongState [] := by
  simp [applyRouteOff, h, hb]

theorem applyRouteOff_empty (h : (s.bin r).list = []) (hb : (s.bin r).state ≠ .off) :
    applyRouteOff r s = (s.saveBin r { state := .off, list := [], closeTimer := none }).endPosted .fp := by
  simp [applyRouteOff, h, hb]

theorem applyRouteOn_off (h : (s.bin r).state = .off) : applyRouteOn r s = (s.saveBin r .fresh).endPosted .fp := by
  simp [applyRouteOn, h]

theorem applyRouteOn_refused (h : (s.bin r).state ≠ .off) :
    applyRouteOn r s = s.refuse .fp .routeOn r.val .wrongState [] := by
  cases hb : (s.bin r).state with
  | off => exact absurd hb h
  | closed => simp [applyRouteOn, hb]
  | _ => simp [applyRouteOn, hb]

end

/-- Settles O22: the bin's state decides between the fresh bin and the refusal. -/
theorem bagReplacedApplied : Obligations.BagReplacedApplied := by
  refine ⟨fun key payload => parsePosted_bagReplaced_outside payload, fun s f r hp hs hf => ?_⟩
  have taken : exec (.bagReplaced f true) s =
      .next (commit (.bagReplaced f true) (State.takePosted (PostedReq.bagReplaced r).code f true) s) := rfl
  have handed := State.taking_bin .fp (.bagReplaced r) s r
  simp only [← handed]
  by_cases h : ((s.taking .fp (.bagReplaced r)).bin r).state = .closed
  · simp only [if_pos h]
    exact exec_postedApplied taken hp hs hf (applyBagReplaced_closed h) (State.saveBin_taking ..)
      (by simpa using State.free_room hs) (by simp)
  · simp only [if_neg h]
    exact exec_postedRefused taken hp hs hf (applyBagReplaced_refused h)

/-- Settles O23: the bin's list and state decide between the refusals and the new bin. -/
theorem routeOffAndOnApplied : Obligations.RouteOffAndOnApplied := by
  intro s r hs
  have room := State.free_room hs
  refine ⟨fun f hp hf => ?off, fun f hp hf => ?on⟩
  case off =>
    have taken : exec (.routeOff f true) s =
        .next (commit (.routeOff f true) (State.takePosted (PostedReq.routeOff r).code f true) s) := rfl
    have handed := State.taking_bin .fp (.routeOff r) s r
    simp only [← handed]
    by_cases hl : ((s.taking .fp (.routeOff r)).bin r).list = []
    · by_cases hb : ((s.taking .fp (.routeOff r)).bin r).state = .off
      · simp only [ne_eq, hl, not_true_eq_false, if_false, if_pos hb]
        exact exec_postedRefused taken hp hs hf (applyRouteOff_off hl hb)
      · simp only [ne_eq, hl, not_true_eq_false, if_false, if_neg hb]
        exact exec_postedApplied taken hp hs hf (applyRouteOff_empty hl hb) (State.saveBin_taking ..)
          (by simpa using room) (by simp)
    · simp only [if_pos hl]
      exact exec_postedRefused taken hp hs hf (applyRouteOff_notEmpty hl)
  case on =>
    have taken : exec (.routeOn f true) s =
        .next (commit (.routeOn f true) (State.takePosted (PostedReq.routeOn r).code f true) s) := rfl
    have handed := State.taking_bin .fp (.routeOn r) s r
    simp only [← handed]
    by_cases h : ((s.taking .fp (.routeOn r)).bin r).state = .off
    · simp only [if_pos h]
      exact exec_postedApplied taken hp hs hf (applyRouteOn_off h) (State.saveBin_taking ..) (by simpa using room)
        (by simp)
    · simp only [if_neg h]
      exact exec_postedRefused taken hp hs hf (applyRouteOn_refused h)

/-! ### REJECT CONTAINER: one equation per row of R166 -/

section
variable {s : State}

theorem applyRejectContainer_failed
    (h : s.recog.stage = .sensed ∨ s.recog.stage = .tagRead ∨ s.recog.stage = .settled) :
    applyRejectContainer s = (s.failHere .rejected).endPosted .fp := by
  rcases h with h | h | h <;> simp [applyRejectContainer, h]

theorem applyRejectContainer_idle (h : s.recog.stage = .idle) :
    applyRejectContainer s = s.refuse .fp .rejectContainer 0 .wrongState [] := by
  simp [applyRejectContainer, h]

/-- The notice of a failed recognition names the tag kept, or 0 for one out of range (R165). -/
theorem State.failHere_eq (why : Reason) (s : State) :
    s.failHere why = State.notify .fp
      (noteFor .returnUnread
        (match s.recog.tag with
        | some tag => if 1 ≤ tag ∧ tag ≤ 1048575 then tag else 0
        | none => 0)
        why [s.recog.stage.number, s.recog.gapCount, s.recog.longestGap])
      { s with recog := s.recog.stop } := by
  unfold State.failHere State.failRecognition
  cases s.recog.tag <;> rfl

theorem State.failHere_taking (q : PostedReq) (why : Reason) :
    (s.taking .fp q).failHere why = (s.failHere why).taking .fp q := by
  rw [State.failHere_eq, State.failHere_eq, ← State.notify_taking]
  rfl

@[simp] theorem State.failHere_writeQueue (why : Reason) : (s.failHere why).writeQueue = s.writeQueue := by
  simp [State.failHere_eq]

@[simp] theorem State.failHere_bays (why : Reason) : (s.failHere why).bays = s.bays := by
  simp [State.failHere_eq]

end

/-- Settles O24: the recognizer's stage decides between the failed recognition and the refusal. -/
theorem rejectContainerApplied : Obligations.RejectContainerApplied := by
  intro s f hp hs hf
  have taken : exec (.rejectContainer f true) s =
      .next (commit (.rejectContainer f true) (State.takePosted PostedReq.rejectContainer.code f true) s) := rfl
  have handed := State.taking_recog .fp .rejectContainer s
  refine ⟨fun h => ?_, fun h => ?_⟩
  · have failed := exec_postedApplied taken hp hs hf (applyRejectContainer_failed (by rwa [handed]))
      (State.failHere_taking _ _) (by simpa using (State.free_room hs).le) (by simp)
    rwa [State.failHere_eq] at failed
  · exact exec_postedRefused taken hp hs hf (applyRejectContainer_idle (by rwa [handed]))

end Sys2Proof.Machine
end

section
/-! CERTIFICATES. FORMAT RECORDS (R191, R192) and SET PARAMETER (R193). -/

namespace Sys2Proof.Machine

/-! ### FORMAT RECORDS: one equation per mode -/

section
variable {s : State}

theorem applyFormatRecords_loansOut (hm : s.mode = .ready) (h : s.loans ≠ []) :
    applyFormatRecords s = s.refuse .cp .formatRecords 0 .loansOut [s.loans.length] := by
  simp [applyFormatRecords, hm, h]

theorem applyFormatRecords_ready (hm : s.mode = .ready) (h : s.loans = []) :
    applyFormatRecords s = ((s.formatBlocks.hand [.mark erasedMark]).handFormat).endPosted .cp := by
  simp [applyFormatRecords, hm, h]

theorem applyFormatRecords_unformatted (hm : s.mode = .unformatted) :
    applyFormatRecords s = (State.handErasure { s with startup := .formatting }).handFormat := by
  simp [applyFormatRecords, hm]

theorem State.format_taking (q : PostedReq) :
    ((s.taking .cp q).formatBlocks.hand [.mark erasedMark]).handFormat =
      ((s.formatBlocks.hand [.mark erasedMark]).handFormat).taking .cp q := rfl

end

/-- A command that takes a FORMAT RECORDS on an idle CP of an unformatted part: the application's own effect, with a place
for its units (R170, R172). -/
theorem exec_formatUnformatted {f : Frame} {s t : State} (hp : f.port = .cp) (hf : Spells f .formatRecords)
    (hm : s.mode = .unformatted) (hr : (s.port .cp).resetLine = false) (hq : (s.port .cp).posted = [])
    (ha : (s.port .cp).applying = false) (hc : s.scan = none)
    (ht : applyFormatRecords (s.taking .cp .formatRecords) = t) (hw : t.writeQueue.length ≤ Config.maxUnits)
    (hb : t.bays = s.bays) : exec (.formatRecords f true) s = .next t := by
  subst ht
  have accepted : takeFormatRecords f true s = applyFormatRecords (s.taking .cp .formatRecords) := by
    obtain ⟨checked, spelled⟩ := hf
    have queued : s.queue .cp .formatRecords true = applyFormatRecords (s.taking .cp .formatRecords) := by
      rw [State.queue_idle _ hq ha fun _ => hc]
      exact State.applyHead_fits (q := .formatRecords) (rest := []) (s := s.taking .cp .formatRecords) rfl
        (State.fits_room hw)
    rw [← queued, takeFormatRecords, State.takePosted, hp, hr]
    simp only [PostedReq.code] at checked spelled
    simp [checked, spelled, hm]
  exact exec_roomPlain rfl accepted hw hb

/-- Settles O18: the mode and the Loan Table decide between the refusal, the emptied blocks and the writes alone. -/
theorem formatRecordsApplied : Obligations.FormatRecordsApplied := by
  refine ⟨fun s f hp hs hf => ?ready, fun s f hp hf hm hr hq ha hc hw => ?unformatted⟩
  case ready =>
    have taken : exec (.formatRecords f true) s =
        .next (commit (.formatRecords f true) (State.takePosted PostedReq.formatRecords.code f true) s) := rfl
    obtain ⟨mode, -⟩ := id hs
    refine ⟨fun h => exec_postedRefused taken hp hs hf (applyFormatRecords_loansOut mode h), fun h hw => ?_⟩
    exact exec_postedApplied taken hp hs hf (applyFormatRecords_ready mode h) (State.format_taking _)
      (by simpa [State.handFormat, State.formatBlocks, State.buildStations, Config.maxUnits] using hw) rfl
  case unformatted =>
    have applied := applyFormatRecords_unformatted (s := s.taking .cp .formatRecords) hm
    refine ⟨fun h => ?_, fun h => ?_⟩
    · have kept : State.handErasure { s.taking .cp .formatRecords with startup := .formatting } =
          { s.taking .cp .formatRecords with startup := .formatting } := if_pos h
      rw [kept] at applied
      exact exec_formatUnformatted hp hf hm hr hq ha hc applied
        (by simp [Config.maxUnits]; omega) rfl
    · have erased : State.handErasure { s.taking .cp .formatRecords with startup := .formatting } =
          State.hand [.mark erasedMark] { s.taking .cp .formatRecords with startup := .formatting } := if_neg h
      rw [erased] at applied
      exact exec_formatUnformatted hp hf hm hr hq ha hc applied
        (by simp [Config.maxUnits]; omega) rfl

/-! ### SET PARAMETER: what a changed setting brings (R193) -/

section
variable {n : Nat} {r : RouteNo} {u : WriteUnit} {s : State}

theorem State.settingChanged_label (h : n = 44) : s.settingChanged n u = (s.hand u).updateStations := by
  simp [State.settingChanged, h]

theorem State.settingChanged_plain (h : n < 128) (hn : n ≠ 44) : s.settingChanged n u = s.hand u := by
  simp [State.settingChanged, h, hn]

/-- The route of a route parameter, from the number of any of its four settings (section 10.4). -/
theorem paramRoute_eq {k : Nat} (hk : k < 4) (h : n = 128 + k + 4 * r.val) : paramRoute n = r := by
  have quotient : (n - 128) / 4 = r.val := by omega
  apply Fin.ext
  simp [paramRoute, quotient, Fin.ofNat]

theorem State.settingChanged_gate (h : n = 128 + 4 * r.val) : s.settingChanged n u = (s.hand u).updateStations := by
  have rem : n % 4 = 0 := by omega
  simp [State.settingChanged, rem, show ¬n = 44 by omega, show ¬n < 128 by omega]

theorem State.settingChanged_output (h : n = 129 + 4 * r.val) : s.settingChanged n u = s.hand u := by
  have rem : n % 4 = 1 := by omega
  simp [State.settingChanged, rem, show ¬n = 44 by omega]

theorem State.settingChanged_trigger (h : n = 130 + 4 * r.val) : s.settingChanged n u = s.retrigger r u := by
  have rem : n % 4 = 2 := by omega
  simp [State.settingChanged, rem, show ¬n = 44 by omega, show ¬n < 128 by omega, paramRoute_eq (k := 2) (by omega) h]

theorem State.settingChanged_timeout (h : n = 131 + 4 * r.val) : s.settingChanged n u = (s.hand u).retimeBin r := by
  have rem : n % 4 = 3 := by omega
  simp [State.settingChanged, rem, show ¬n = 44 by omega, show ¬n < 128 by omega, paramRoute_eq (k := 3) (by omega) h]

end

section
variable (p : Port) (q : PostedReq) (s : State)

theorem State.releaseBin_taking (r : RouteNo) (u : WriteUnit) :
    (s.taking p q).releaseBin r u = (s.releaseBin r u).taking p q := by
  rw [State.releaseBin_eq, State.releaseBin_eq]
  simp only [State.notifyBoth, ← State.notify_taking]
  cases p <;> rfl

theorem State.retrigger_taking (r : RouteNo) (u : WriteUnit) :
    (s.taking p q).retrigger r u = (s.retrigger r u).taking p q := by
  by_cases h : (s.bin r).state = .open ∧ s.triggerLevel r ≤ (s.bin r).list.length
  · have due : s.retrigger r u = s.releaseBin r u := if_pos h
    rw [due, ← State.releaseBin_taking]
    exact if_pos (by cases p <;> exact h)
  · have early : s.retrigger r u = s.hand u := if_neg h
    rw [early, ← State.handed_taking]
    exact if_neg (by cases p <;> exact h)

theorem State.retimeBin_taking (r : RouteNo) : (s.taking p q).retimeBin r = (s.retimeBin r).taking p q := by
  unfold State.retimeBin
  simp only [State.taking_bin]
  split
  · cases p <;> rfl
  · rfl

theorem State.updateStations_taking : (s.taking p q).updateStations = s.updateStations.taking p q := by
  have named : ∀ a, (s.taking p q).configured a = s.configured a := fun a => by cases p <;> rfl
  have table : (s.taking p q).stations = s.stations := by cases p <;> rfl
  have same : (s.taking p q).updateStations.stations = s.updateStations.stations := by
    simp only [State.updateStations, named, table]
  show { s.taking p q with stations := (s.taking p q).updateStations.stations } =
    State.taking p q { s with stations := s.updateStations.stations }
  rw [same]
  generalize s.updateStations.stations = stations
  cases p <;> rfl

theorem State.settingChanged_taking (n : Nat) (u : WriteUnit) :
    (s.taking p q).settingChanged n u = (s.settingChanged n u).taking p q := by
  simp only [State.settingChanged, State.handed_taking, State.updateStations_taking, State.retimeBin_taking,
    State.retrigger_taking, apply_ite (State.taking p q)]

end

section
variable (s : State)

@[simp] theorem State.releaseBin_units (r : RouteNo) (u : WriteUnit) :
    (s.releaseBin r u).writeQueue.length = s.writeQueue.length + 1 := by
  simp [State.releaseBin_eq, State.notifyBoth]

/-- A changed setting is one unit, whatever it brings, and leaves the bays alone (R193). -/
theorem State.settingChanged_unit (n : Nat) (u : WriteUnit) : (s.settingChanged n u).bays = s.bays ∧
    (s.settingChanged n u).writeQueue.length = s.writeQueue.length + 1 := by
  unfold State.settingChanged State.retrigger State.retimeBin State.updateStations
  simp only
  split_ifs <;> simp

end

section
variable {p : Port} {n v : Nat} {row : Param} {s : State}

theorem applySetParameter_same (h : paramOf n = some row) (hv : row.clamp v = s.setting n) :
    applySetParameter p n v s = (s.hand [.setting n (row.clamp v)]).endPosted p := by
  simp [applySetParameter, h, hv]

theorem applySetParameter_changed (h : paramOf n = some row) (hv : row.clamp v ≠ s.setting n) :
    applySetParameter p n v s =
      (State.settingChanged n [.setting n (row.clamp v)]
        { s with settings := writeSetting n (row.clamp v) s.settings }).endPosted p := by
  simp [applySetParameter, h, hv]

/-- The settings changed go past the hand-over of a posted request. -/
theorem State.settings_taking (q : PostedReq) (settings : Table Nat) :
    { s.taking p q with settings := settings } = State.taking p q { s with settings := settings } := by cases p <;> rfl

/-- The trigger level just set is the level that an OPEN bin is held against (R147). -/
theorem State.retrigger_set {r : RouteNo} {u : WriteUnit} {value : Nat} (h : s.triggerLevel r = value) :
    s.retrigger r u =
      if (s.bin r).state = .open ∧ value ≤ (s.bin r).list.length then s.releaseBin r u else s.hand u := by
  subst h
  rfl

/-- The close timeout just set is what an OPEN bin's timer starts at (R145). -/
theorem State.retimeBin_set {r : RouteNo} {value : Nat} (h : s.closeTimeout r = value) :
    s.retimeBin r =
      if (s.bin r).state = .open ∧ (s.bin r).list ≠ [] then
        s.setBin r { s.bin r with closeTimer := if value = 0 then none else some (s.now + 1000 * value) }
      else s := by
  subst h
  rfl

end

/-- Settles O19: the value held decides between the unit alone and the changed setting, and the setting's number what the
change brings. -/
theorem setParameterApplied : Obligations.SetParameterApplied := by
  intro s f n v row hs hf hn sorted value t u
  have taken : exec (.setParameter f true) s =
      .next (commit (.setParameter f true) (State.takePosted (PostedReq.setParameter n v).code f true) s) := rfl
  have handed := State.taking_setting f.port (.setParameter n v) s n
  have room := State.free_room hs
  have written : ∀ m, m = n → t.setting m = value := by
    rintro m rfl
    exact setting_writeSetting sorted
  refine ⟨fun same => ?_, fun differs => ?_⟩
  · exact exec_postedApplied taken rfl hs hf (applySetParameter_same hn (same.trans handed.symm))
      (State.handed_taking ..) (by simpa using room) (by simp)
  have applied := applySetParameter_changed (p := f.port) hn (fun same => differs (same.trans handed))
  rw [State.settings_taking, State.settingChanged_taking] at applied
  obtain ⟨bays, units⟩ := t.settingChanged_unit n u
  have changed : exec (.setParameter f true) s = .next (State.applied f.port (t.settingChanged n u)) :=
    exec_postedApplied taken rfl hs hf (applied.trans (by simp only [State.taking_settings]; rfl)) rfl
      (units ▸ room) bays
  refine ⟨fun hlow hne => ?_, fun hlabel => ?_, fun r hr => ?_, fun r hr => ?_, fun r hr => ?_, fun r hr => ?_⟩
  · rwa [State.settingChanged_plain hlow hne] at changed
  · rwa [State.settingChanged_label hlabel] at changed
  · rwa [State.settingChanged_gate hr] at changed
  · rwa [State.settingChanged_output hr] at changed
  · rwa [State.settingChanged_trigger hr, State.retrigger_set (written _ hr.symm)] at changed
  · rwa [State.settingChanged_timeout hr, State.retimeBin_set (s := t.hand u) (written _ hr.symm)] at changed

end Sys2Proof.Machine
end

section
/-! SUPPORT. Line jobs (R137): what the head of the queue does, by its kind and by the first check of a CONTAIN ITEM
(R139), and the release of a route bin with the job ended. -/

namespace Sys2Proof.Machine

/-! ### The first check of a CONTAIN job (R139) -/

theorem LoanState.containable_iff {st : LoanState} : st.containable = true ↔ st = .written ∨ st = .picked := by
  cases st <;> simp [LoanState.containable]

section
variable {s : State} {tag slot : Nat} {l : Loan} {p : Patron}

theorem State.firstCheck_unknown (h : s.loan tag = none) : s.firstCheck tag = .error (.unknownLoan, []) := by
  simp [State.firstCheck, h]

theorem State.firstCheck_wrongState (h : s.loan tag = some l) (hw : l.state ≠ .written) (hp : l.state ≠ .picked) :
    s.firstCheck tag = .error (.wrongState, []) := by
  have held : ¬l.state.containable = true := by rw [LoanState.containable_iff]; tauto
  simp only [State.firstCheck, h, if_neg held]

theorem State.firstCheck_binClosed (h : s.loan tag = some l) (hl : l.state = .written ∨ l.state = .picked)
    (hr : s.reader l.patron = some (slot, p)) (hb : (s.bin p.route).state ≠ .open) :
    s.firstCheck tag = .error (.binClosed, [p.route.val, (s.bin p.route).state.number]) := by
  simp [State.firstCheck, h, LoanState.containable_iff.mpr hl, hr, hb]

theorem State.firstCheck_ok (h : s.loan tag = some l) (hl : l.state = .written ∨ l.state = .picked)
    (hr : s.reader l.patron = some (slot, p)) (hb : (s.bin p.route).state = .open) :
    s.firstCheck tag = .ok (l, p.route) := by
  simp [State.firstCheck, h, LoanState.containable_iff.mpr hl, hr, hb]

end

/-! ### The running of the queue (R137) -/

section
variable {s t : State} {j : LineJob} {rest : List LineJob}

theorem State.startJobs_empty (h : s.lineJobs = []) : s.startJobs = s := by
  simp [State.startJobs, h, runJobs]

/-- A command on the line lets no job start. -/
theorem State.startJobs_busy (h : s.lineCmd ≠ none) : s.startJobs = s := by
  unfold State.startJobs
  cases hq : s.lineJobs with
  | nil => rfl
  | cons j rest => simp [runJobs, hq, h]

theorem State.startJobs_sent (hq : s.lineJobs = j :: rest) (hj : j.stage = .waiting) (hc : s.lineCmd = none)
    (hb : s.beginJob j = (t, true)) : s.startJobs = t := by
  simp [State.startJobs, hq, runJobs, hj, hc, hb]

theorem State.startJobs_ended (hq : s.lineJobs = [j]) (hj : j.stage = .waiting) (hc : s.lineCmd = none)
    (hb : s.beginJob j = (t, false)) : s.startJobs = { t with lineJobs := t.lineJobs.tail } := by
  simp [State.startJobs, hq, runJobs, hj, hc, hb]

end

section
variable {s : State} {tag : Nat} {why : Reason} {values : List Nat} {l : Loan} {r : RouteNo}

theorem State.beginJob_refused {j : LineJob} (hk : j.kind = .contain tag) (h : s.firstCheck tag = .error (why, values)) :
    s.beginJob j = (s.refuseItem tag why values, false) := by
  simp [State.beginJob, hk, h]

theorem State.beginJob_offline {j : LineJob} (hk : j.kind = .contain tag) (h : s.firstCheck tag = .ok (l, r))
    (ho : s.station s.labelStation = .offline) :
    s.beginJob j = (s.refuseItem tag .stationOffline [s.labelStation], false) := by
  simp [State.beginJob, hk, h, ho]

theorem State.beginJob_label {j : LineJob} (hk : j.kind = .contain tag) (h : s.firstCheck tag = .ok (l, r))
    (ho : s.station s.labelStation ≠ .offline) :
    s.beginJob j = (s.sendLine .label (some r) .label s.labelStation
      (labelData tag l.patron r l.medium (s.itemCount l) l.period), true) := by
  simp [State.beginJob, hk, h, ho]

/-- A CONTAIN job alone in the queue whose first check stops it: refused, and gone. -/
theorem State.startItem_refused (hq : s.lineJobs = [{ kind := .contain tag, route := none, stage := .waiting }])
    (hc : s.lineCmd = none) (h : s.firstCheck tag = .error (why, values)) :
    s.startJobs = { s.refuseItem tag why values with lineJobs := [] } := by
  rw [State.startJobs_ended hq rfl hc (State.beginJob_refused rfl h)]
  simp [State.refuseItem, State.notifyRefused, hq]

/-- A CONTAIN job alone in the queue that the label station stops: refused, and gone. -/
theorem State.startItem_offline (hq : s.lineJobs = [{ kind := .contain tag, route := none, stage := .waiting }])
    (hc : s.lineCmd = none) (h : s.firstCheck tag = .ok (l, r)) (ho : s.station s.labelStation = .offline) :
    s.startJobs = { s.refuseItem tag .stationOffline [s.labelStation] with lineJobs := [] } := by
  rw [State.startJobs_ended hq rfl hc (State.beginJob_offline rfl h ho)]
  simp [State.refuseItem, State.notifyRefused, hq]

/-- A CONTAIN job alone in the queue that passes: its LABEL goes out. -/
theorem State.startItem_label (hq : s.lineJobs = [{ kind := .contain tag, route := none, stage := .waiting }])
    (hc : s.lineCmd = none) (h : s.firstCheck tag = .ok (l, r)) (ho : s.station s.labelStation ≠ .offline) :
    s.startJobs =
      { s with
        lineJobs := [{ kind := .contain tag, route := some r, stage := .label }]
        lineCmd := some
          { command := .label, station := s.labelStation
            chars := lineChars s.labelStation .label (labelData tag l.patron r l.medium (s.itemCount l) l.period)
            sent := 1, retries := none, phase := .sending } } := by
  rw [State.startJobs_sent hq rfl hc (State.beginJob_label rfl h ho)]
  simp only [State.sendLine, hq]

/-- A PING at the head of a free line goes out, whatever its station's state (R135). -/
theorem State.startPing {a : Nat} {rest : List LineJob}
    (hq : s.lineJobs = { kind := .ping a, route := none, stage := .waiting } :: rest) (hc : s.lineCmd = none) :
    s.startJobs =
      { s with
        lineJobs := { kind := .ping a, route := none, stage := .ping } :: rest
        lineCmd := some
          { command := .ping, station := a, chars := lineChars a .ping [], sent := 1, retries := none
            phase := .sending } } := by
  rw [State.startJobs_sent hq rfl hc rfl]
  simp only [State.sendLine, hq]

/-- The last job ends: the queue and the line are empty. -/
theorem State.endJob_last {j : LineJob} (hq : s.lineJobs = [j]) :
    s.endJob = { s with lineJobs := [], lineCmd := none } := by
  unfold State.endJob
  rw [hq]
  exact State.startJobs_empty rfl

/-- The notice of a refused job and its end. -/
theorem State.endJob_refuseItem {j : LineJob} (hq : s.lineJobs = [j]) :
    (s.refuseItem tag why values).endJob =
      { s.notifyRefused .fp .containItem tag why values with lineJobs := [], lineCmd := none } :=
  State.endJob_last (j := j) (by simp [State.refuseItem, State.notifyRefused, hq])

end

/-- The release of a bin goes past the end of the line's last job. -/
theorem State.releaseBin_lineFree (r : RouteNo) (u : WriteUnit) (s : State) :
    { s.releaseBin r u with lineJobs := [], lineCmd := none } =
      State.releaseBin r u { s with lineJobs := [], lineCmd := none } := by
  rw [State.releaseBin_eq, State.releaseBin_eq]
  rfl

@[simp] theorem State.releaseBin_lineJobs (r : RouteNo) (u : WriteUnit) (s : State) :
    (s.releaseBin r u).lineJobs = s.lineJobs := by
  simp [State.releaseBin_eq, State.notifyBoth]

/-- The release of a bin and the end of the last job. -/
theorem State.endJob_release {j : LineJob} {r : RouteNo} {u : WriteUnit} {s : State} (h : s.lineJobs = [j]) :
    (s.releaseBin r u).endJob = State.releaseBin r u { s with lineJobs := [], lineCmd := none } :=
  (State.endJob_last ((State.releaseBin_lineJobs ..).trans h)).trans (State.releaseBin_lineFree ..)

/-- A refusal's notice goes past the end of a posted application. -/
theorem State.notifyRefused_applied (code : ReqCode) (key : Nat) (why : Reason) (values : List Nat) (s : State) :
    (State.applied .fp s).notifyRefused .fp code key why values =
      State.applied .fp (s.notifyRefused .fp code key why values) := by
  simp only [State.notifyRefused, State.notify, PortUnit.append_eq]
  rfl

end Sys2Proof.Machine
end

section
/-! CERTIFICATES. The mailing line: CONTAIN ITEM and PING STATION (R135, R138 to R140), the answers (R141, R142) and the
timers (R132, R134, R145). -/

namespace Sys2Proof.Machine

/-! ### CONTAIN ITEM and PING STATION: one equation per row -/

section
variable {tag a : Nat} {l : Loan} {s : State}

theorem applyContainItem_unknown (h : s.loan tag = none) :
    applyContainItem tag s = s.refuse .fp .containItem tag .unknownLoan [] := by
  simp [applyContainItem, h]

theorem applyContainItem_wrongState (h : s.loan tag = some l) (hw : l.state ≠ .written) (hp : l.state ≠ .picked) :
    applyContainItem tag s = s.refuse .fp .containItem tag .wrongState [l.state.number] := by
  have held : l.state.containable = false := by
    rw [← Bool.not_eq_true, LoanState.containable_iff]
    tauto
  simp [applyContainItem, h, held]

theorem applyContainItem_duplicate (h : s.loan tag = some l) (hl : l.state = .written ∨ l.state = .picked)
    (hd : ∃ j ∈ s.lineJobs, j.kind = .contain tag) :
    applyContainItem tag s = s.refuse .fp .containItem tag .duplicate [] := by
  simp [applyContainItem, h, LoanState.containable_iff.mpr hl, hd]

theorem applyContainItem_busy (h : s.loan tag = some l) (hl : l.state = .written ∨ l.state = .picked)
    (hd : ∀ j ∈ s.lineJobs, j.kind ≠ .contain tag) (hfull : 16 ≤ s.lineJobs.length) :
    applyContainItem tag s = s.refuse .fp .containItem tag .lineBusy [] := by
  have first : ¬∃ j ∈ s.lineJobs, j.kind = .contain tag := by simpa using hd
  simp [applyContainItem, h, LoanState.containable_iff.mpr hl, first, Config.maxLineJobs, hfull]

theorem applyContainItem_queued (h : s.loan tag = some l) (hl : l.state = .written ∨ l.state = .picked)
    (hd : ∀ j ∈ s.lineJobs, j.kind ≠ .contain tag) (hroom : s.lineJobs.length < 16) :
    applyContainItem tag s = (s.endPosted .fp).appendJob (.contain tag) := by
  have first : ¬∃ j ∈ s.lineJobs, j.kind = .contain tag := by simpa using hd
  simp [applyContainItem, h, LoanState.containable_iff.mpr hl, first, Config.maxLineJobs, hroom.not_ge]

theorem applyPingStation_busy (hfull : 16 ≤ s.lineJobs.length) :
    applyPingStation a s = s.refuse .fp .pingStation a .lineBusy [] := by
  simp [applyPingStation, Config.maxLineJobs, hfull]

theorem applyPingStation_queued (hroom : s.lineJobs.length < 16) :
    applyPingStation a s = (s.endPosted .fp).appendJob (.ping a) := by
  simp [applyPingStation, Config.maxLineJobs, hroom.not_ge]

end

section
variable {k : LineJobKind} {s : State}

/-- A job joins the queue of a busy line and waits (R137). -/
theorem State.appendJob_busy (h : s.lineCmd ≠ none) :
    s.appendJob k = { s with lineJobs := s.lineJobs ++ [{ kind := k, route := none, stage := .waiting }] } :=
  State.startJobs_busy h

/-- A job joins an empty queue and is its head (R137). -/
theorem State.appendJob_alone (h : s.lineJobs = []) :
    s.appendJob k = State.startJobs { s with lineJobs := [{ kind := k, route := none, stage := .waiting }] } := by
  unfold State.appendJob
  rw [h]
  rfl

/-- The refusal that ends a job alone in the queue, seen from before the job joined it. -/
theorem State.refuseItem_alone {tag : Nat} {why : Reason} {values : List Nat} (jobs : List LineJob) (h : s.lineJobs = []) :
    { State.refuseItem tag why values { s with lineJobs := jobs } with lineJobs := [] } =
      s.notifyRefused .fp .containItem tag why values := by
  cases s
  simp only at h
  subst h
  rfl

end

/-- A command that takes a posted request of the line: it joins the line job queue once its application has ended, which
hands no unit and leaves the bays alone. -/
theorem exec_postedJob {i e : Instr} {f : Frame} {q : PostedReq} {k : LineJobKind} {s t : State}
    (hi : exec i s = .next (commit e (State.takePosted q.code f true) s)) (hp : f.port = .fp) (hs : s.free .fp)
    (hf : Spells f q) (hq : applyPosted .fp q (s.taking .fp q) = ((s.taking .fp q).endPosted .fp).appendJob k)
    (ht : (State.applied .fp s).appendJob k = State.applied .fp t) (hw : t.writeQueue = s.writeQueue)
    (hb : t.bays = s.bays) : exec i s = .next (State.applied .fp t) := by
  rw [State.endPosted_taking, ht] at hq
  exact exec_posted hi hp hs hf hq (by simpa [hw] using (State.free_room hs).le) (by simpa using hb)

/-- Settles O21: the loan, the queue and the line decide whether the request is refused, waits, or starts at once; a CONTAIN
ITEM that starts is decided by its first check and by the label station. -/
theorem containItemAndPingApplied : Obligations.ContainItemAndPingApplied := by
  refine ⟨fun s f tag hp hs hf => ?contain, fun s f a hp hs hf => ?ping⟩
  case contain =>
    have taken : exec (.containItem f true) s =
        .next (commit (.containItem f true) (State.takePosted (PostedReq.containItem tag).code f true) s) := rfl
    have handed := State.taking_loan .fp (.containItem tag) s tag
    refine ⟨fun h => exec_postedRefused taken hp hs hf (applyContainItem_unknown (handed.trans h)),
      fun l h hw hpk => exec_postedRefused taken hp hs hf (applyContainItem_wrongState (handed.trans h) hw hpk),
      fun l h hl => ?_⟩
    refine ⟨fun hd => exec_postedRefused taken hp hs hf (applyContainItem_duplicate (handed.trans h) hl hd),
      fun hd hfull => exec_postedRefused taken hp hs hf (applyContainItem_busy (handed.trans h) hl hd hfull), ?_⟩
    have queued (hd : ∀ j ∈ s.lineJobs, j.kind ≠ .contain tag) (hroom : s.lineJobs.length < 16) :=
      applyContainItem_queued (s := s.taking .fp (.containItem tag)) (handed.trans h) hl hd hroom
    have empty (hq : s.lineJobs = []) := queued (by simp [hq]) (by simp [hq])
    have ended {why : Reason} {values : List Nat} (hq : s.lineJobs = []) :=
      (State.refuseItem_alone (s := State.applied .fp s) (tag := tag) (why := why) (values := values)
        [{ kind := .contain tag, route := none, stage := .waiting }] hq).trans (State.notifyRefused_applied ..)
    refine ⟨fun hd hroom hc => ?_, fun slot p hq hc hr hb ho => ?_, fun slot p hq hc hr => ⟨fun hb => ?_, fun hb ho => ?_⟩⟩
    · exact exec_postedJob taken hp hs hf (queued hd hroom) (State.appendJob_busy (s := State.applied .fp s) hc) rfl rfl
    · have starts := State.startItem_label
        (s := { State.applied .fp s with lineJobs := [{ kind := .contain tag, route := none, stage := .waiting }] })
        rfl hc (State.firstCheck_ok h hl hr hb) ho
      exact exec_postedJob taken hp hs hf (empty hq)
        ((State.appendJob_alone (s := State.applied .fp s) hq).trans starts) rfl rfl
    · have starts := State.startItem_refused
        (s := { State.applied .fp s with lineJobs := [{ kind := .contain tag, route := none, stage := .waiting }] })
        rfl hc (State.firstCheck_binClosed h hl hr hb)
      exact exec_postedJob taken hp hs hf (empty hq)
        ((State.appendJob_alone (s := State.applied .fp s) hq).trans (starts.trans (ended hq))) (by simp) (by simp)
    · have starts := State.startItem_offline
        (s := { State.applied .fp s with lineJobs := [{ kind := .contain tag, route := none, stage := .waiting }] })
        rfl hc (State.firstCheck_ok h hl hr hb) ho
      exact exec_postedJob taken hp hs hf (empty hq)
        ((State.appendJob_alone (s := State.applied .fp s) hq).trans (starts.trans (ended hq))) (by simp) (by simp)
  case ping =>
    have taken : exec (.pingStation f true) s =
        .next (commit (.pingStation f true) (State.takePosted (PostedReq.pingStation a).code f true) s) := rfl
    have queued (hroom : s.lineJobs.length < 16) :=
      applyPingStation_queued (a := a) (s := s.taking .fp (.pingStation a)) hroom
    refine ⟨fun hfull => exec_postedRefused taken hp hs hf (applyPingStation_busy hfull), fun hroom hc => ?_,
      fun hq hc => ?_⟩
    · exact exec_postedJob taken hp hs hf (queued hroom) (State.appendJob_busy (s := State.applied .fp s) hc) rfl rfl
    · have starts := State.startPing
        (s := { State.applied .fp s with lineJobs := [{ kind := .ping a, route := none, stage := .waiting }] }) rfl hc
      exact exec_postedJob taken hp hs hf (queued (by simp [hq]))
        ((State.appendJob_alone (s := State.applied .fp s) hq).trans starts) rfl rfl

end Sys2Proof.Machine
end

section
/-! CERTIFICATES. The mailing line: the answers (R132, R135, R141, R142) and the timers (R132, R134, R145, R146). -/

namespace Sys2Proof.Machine

/-! ### What an answer is taken for (R132) -/

section
variable {s : State} {cmd : LineSend} {limit : Nat} {chars : List LineChar} {which : LineCommand} {a : LineAnswer}

theorem State.awaited_eq (hc : s.lineCmd = some cmd) (hp : cmd.phase = .awaiting limit) :
    s.awaited = some (cmd, limit) := by
  simp [State.awaited, hc, hp]

theorem State.answerTo_late (hc : s.lineCmd = some cmd) (hp : cmd.phase = .awaiting limit) (hl : limit < s.now) :
    s.answerTo which chars = none := by
  simp [State.answerTo, State.awaited_eq hc hp, hl]

theorem State.answerTo_within (hc : s.lineCmd = some cmd) (hp : cmd.phase = .awaiting limit) (hl : s.now ≤ limit)
    (hw : cmd.command = which) (ha : parseAnswer cmd.station chars = some a) :
    s.answerTo which chars = some (cmd, a) := by
  simp [State.answerTo, State.awaited_eq hc hp, hl, hw, ha]

end

/-! ### The answers, by what they answer and for whom -/

section
variable {s : State} {cmd : LineSend} {chars : List LineChar} {tag reason : Nat} {r : RouteNo} {stage : LineStage}
  {rest : List LineJob} {l : Loan}

theorem State.runningItem_eq (h : s.lineJobs = { kind := .contain tag, route := some r, stage := stage } :: rest) :
    s.runningItem = some (tag, some r) := by
  simp [State.runningItem, h]

theorem takeLabelAnswer_none (h : s.answerTo .label chars = none) : takeLabelAnswer chars s = s := by
  simp [takeLabelAnswer, h]

theorem takeGateAnswer_none (h : s.answerTo .gate chars = none) : takeGateAnswer chars s = s := by
  simp [takeGateAnswer, h]

theorem takePingAnswer_none (h : s.answerTo .ping chars = none) : takePingAnswer chars s = s := by
  simp [takePingAnswer, h]

theorem takeLabelAnswer_nak (h : s.answerTo .label chars = some (cmd, .nak reason))
    (hr : s.runningItem = some (tag, some r)) : takeLabelAnswer chars s = s.refuseNak tag cmd reason := by
  simp [takeLabelAnswer, h, hr]

theorem takeGateAnswer_nak (h : s.answerTo .gate chars = some (cmd, .nak reason))
    (hr : s.runningItem = some (tag, some r)) : takeGateAnswer chars s = s.refuseNak tag cmd reason := by
  simp [takeGateAnswer, h, hr]

theorem takeLabelAnswer_refused {why : Reason} (h : s.answerTo .label chars = some (cmd, .ack))
    (hr : s.runningItem = some (tag, some r)) (hw : s.secondCheck tag r = some why) :
    takeLabelAnswer chars s = (s.refuseItem tag why []).endJob := by
  simp [takeLabelAnswer, h, hr, hw]

theorem takeLabelAnswer_gate (h : s.answerTo .label chars = some (cmd, .ack))
    (hr : s.runningItem = some (tag, some r)) (hw : s.secondCheck tag r = none) :
    takeLabelAnswer chars s = s.sendLine .gate (some r) .gate (s.gateStation r) (bytesOfNat 1 (s.gateOutput r)) := by
  simp [takeLabelAnswer, h, hr, hw]

theorem takeGateAnswer_binClosed (h : s.answerTo .gate chars = some (cmd, .ack))
    (hr : s.runningItem = some (tag, some r)) (hb : (s.bin r).state ≠ .open) :
    takeGateAnswer chars s = (s.refuseItem tag .binClosed []).endJob := by
  simp [takeGateAnswer, h, hr, hb]

theorem takeGateAnswer_unknown (h : s.answerTo .gate chars = some (cmd, .ack))
    (hr : s.runningItem = some (tag, some r)) (hb : (s.bin r).state = .open) (hl : s.loan tag = none) :
    takeGateAnswer chars s = (s.refuseItem tag .unknownLoan []).endJob := by
  simp [takeGateAnswer, h, hr, hb, hl]

theorem takeGateAnswer_gated (h : s.answerTo .gate chars = some (cmd, .ack))
    (hr : s.runningItem = some (tag, some r)) (hb : (s.bin r).state = .open) (hl : s.loan tag = some l)
    (hs : l.state = .written ∨ l.state = .picked) : takeGateAnswer chars s = (s.gated tag l r).endJob := by
  simp [takeGateAnswer, h, hr, hb, hl, LoanState.containable_iff.mpr hs]

/-- The second check, row by row (R141). -/
theorem State.secondCheck_unknown (h : s.loan tag = none) : s.secondCheck tag r = some .unknownLoan := by
  simp [State.secondCheck, h]

theorem State.secondCheck_wrongState (h : s.loan tag = some l) (hw : l.state ≠ .written) (hp : l.state ≠ .picked) :
    s.secondCheck tag r = some .wrongState := by
  have held : l.state.containable = false := by
    rw [← Bool.not_eq_true, LoanState.containable_iff]
    tauto
  simp [State.secondCheck, h, held]

theorem State.secondCheck_binClosed (h : s.loan tag = some l) (hs : l.state = .written ∨ l.state = .picked)
    (hb : (s.bin r).state ≠ .open) : s.secondCheck tag r = some .binClosed := by
  simp [State.secondCheck, h, LoanState.containable_iff.mpr hs, hb]

theorem State.secondCheck_offline (h : s.loan tag = some l) (hs : l.state = .written ∨ l.state = .picked)
    (hb : (s.bin r).state = .open) (ho : s.station (s.gateStation r) = .offline) :
    s.secondCheck tag r = some .stationOffline := by
  simp [State.secondCheck, h, LoanState.containable_iff.mpr hs, hb, ho]

theorem State.secondCheck_passed (h : s.loan tag = some l) (hs : l.state = .written ∨ l.state = .picked)
    (hb : (s.bin r).state = .open) (ho : s.station (s.gateStation r) ≠ .offline) : s.secondCheck tag r = none := by
  simp [State.secondCheck, h, LoanState.containable_iff.mpr hs, hb, ho]

/-- A PING answered: its station ONLINE, the job ended (R135). -/
theorem takePingAnswer_online {a : LineAnswer} (h : s.answerTo .ping chars = some (cmd, a))
    (ha : s.station cmd.station ≠ .unused) :
    takePingAnswer chars s = (s.setStation cmd.station .online).endJob := by
  simp [takePingAnswer, h, State.answered, ha]

end

/-! ### The gate acknowledged: the loan in its bin (R142, R145, R146) -/

section
variable {s : State} {tag : Nat} {l : Loan} {r : RouteNo}

theorem State.gated_below (h : (s.bin r).list.length + 1 < s.triggerLevel r) (hb : (s.bin r).state = .open) :
    s.gated tag l r =
      ((s.putLoan tag (l.bag r)).setBin r
        { state := .open, list := (s.bin r).list ++ [tag], closeTimer := s.closeTimerStart r }).hand
        [.loan tag (some (l.bag r)), .bin r { state := .open, list := (s.bin r).list ++ [tag] }] := by
  simp [State.gated, Bin.kept, hb, h]

theorem State.gated_full (h : s.triggerLevel r ≤ (s.bin r).list.length + 1) (hb : (s.bin r).state = .open) :
    s.gated tag l r =
      ((s.putLoan tag (l.bag r)).setBin r
        { state := .open, list := (s.bin r).list ++ [tag], closeTimer := s.closeTimerStart r }).releaseBin r
        [.loan tag (some (l.bag r)), .bin r { state := .open, list := (s.bin r).list ++ [tag] }] := by
  simp [State.gated, Bin.kept, hb, h]

end

/-! ### The answers settled -/

/-- A refused job's notice is all that its end leaves, and no unit is handed. -/
theorem exec_jobRefused {i e : Instr} {g : State → State} {s : State} {j : LineJob} {tag : Nat} {why : Reason}
    {values : List Nat} (hi : exec i s = .next (commit e g s)) (hq : s.lineJobs = [j])
    (hg : g s = (s.refuseItem tag why values).endJob) :
    exec i s = .next { s.notifyRefused .fp .containItem tag why values with lineJobs := [], lineCmd := none } :=
  exec_plain hi (hg.trans (State.endJob_refuseItem hq)) (by simp) (by simp)

section
variable {s : State} {cmd : LineSend} {limit : Nat} {chars : List LineChar} {tag : Nat} {r : RouteNo}
  {stage : LineStage}

theorem exec_labelNak {reason : Nat} (hc : s.lineCmd = some cmd) (hph : cmd.phase = .awaiting limit)
    (hw : s.now ≤ limit) (hq : s.lineJobs = [{ kind := .contain tag, route := some r, stage := stage }])
    (hn : parseAnswer cmd.station chars = some (.nak reason)) (hk : cmd.command = .label) :
    exec (.labelAnswer chars) s = .next
      { s.notifyRefused .fp .containItem tag .labelFault [1, cmd.station, reason] with
        lineJobs := [], lineCmd := none } := by
  have nak := takeLabelAnswer_nak (State.answerTo_within hc hph hw hk hn) (State.runningItem_eq hq)
  rw [State.refuseNak, hk] at nak
  exact exec_jobRefused rfl hq nak

theorem exec_gateNak {reason : Nat} (hc : s.lineCmd = some cmd) (hph : cmd.phase = .awaiting limit)
    (hw : s.now ≤ limit) (hq : s.lineJobs = [{ kind := .contain tag, route := some r, stage := stage }])
    (hn : parseAnswer cmd.station chars = some (.nak reason)) (hk : cmd.command = .gate) :
    exec (.gateAnswer chars) s = .next
      { s.notifyRefused .fp .containItem tag .labelFault [2, cmd.station, reason] with
        lineJobs := [], lineCmd := none } := by
  have nak := takeGateAnswer_nak (State.answerTo_within hc hph hw hk hn) (State.runningItem_eq hq)
  rw [State.refuseNak, hk] at nak
  exact exec_jobRefused rfl hq nak

/-- The GATE that follows a LABEL goes out (R141). -/
theorem exec_labelGate (hq : s.lineJobs = [{ kind := .contain tag, route := some r, stage := stage }])
    (ha : s.answerTo .label chars = some (cmd, .ack)) (hs : s.secondCheck tag r = none) :
    exec (.labelAnswer chars) s = .next
      { s with
        lineJobs := [{ kind := .contain tag, route := some r, stage := .gate }]
        lineCmd := some
          { command := .gate, station := s.gateStation r
            chars := lineChars (s.gateStation r) .gate [BitVec.ofNat 8 (s.gateOutput r)], sent := 1
            retries := none, phase := .sending } } := by
  have sent := takeLabelAnswer_gate ha (State.runningItem_eq hq) hs
  simp only [State.sendLine, hq, bytesOfNat, Nat.pow_zero, Nat.div_one] at sent
  exact exec_plain rfl sent rfl rfl

/-- A loan gated into a bin below its trigger level (R142, R145). -/
theorem exec_gateBagged {l : Loan} (hq : s.lineJobs = [{ kind := .contain tag, route := some r, stage := stage }])
    (ha : s.answerTo .gate chars = some (cmd, .ack)) (hb : (s.bin r).state = .open) (hl : s.loan tag = some l)
    (hs : l.state = .written ∨ l.state = .picked) (hw : s.writeQueue.length < 128)
    (hn : (s.bin r).list.length + 1 < s.triggerLevel r) :
    exec (.gateAnswer chars) s = .next (State.hand
      [.loan tag (some (l.bag r)), .bin r { state := .open, list := (s.bin r).list ++ [tag] }]
      { (s.putLoan tag (l.bag r)).setBin r
          { state := .open, list := (s.bin r).list ++ [tag], closeTimer := s.closeTimerStart r } with
        lineJobs := [], lineCmd := none }) := by
  have gated := takeGateAnswer_gated ha (State.runningItem_eq hq) hb hl hs
  rw [State.gated_below hn hb] at gated
  exact exec_roomPlain rfl (gated.trans (State.endJob_last hq)) (by simpa [Config.maxUnits] using hw) (by simp)

/-- A loan gated into a bin that reaches its trigger level, and so released (R142, R146). -/
theorem exec_gateReleased {l : Loan} (hq : s.lineJobs = [{ kind := .contain tag, route := some r, stage := stage }])
    (ha : s.answerTo .gate chars = some (cmd, .ack)) (hb : (s.bin r).state = .open) (hl : s.loan tag = some l)
    (hs : l.state = .written ∨ l.state = .picked) (hw : s.writeQueue.length < 128)
    (hn : s.triggerLevel r ≤ (s.bin r).list.length + 1) :
    exec (.gateAnswer chars) s = .next (State.releaseBin r
      [.loan tag (some (l.bag r)), .bin r { state := .open, list := (s.bin r).list ++ [tag] }]
      { (s.putLoan tag (l.bag r)).setBin r
          { state := .open, list := (s.bin r).list ++ [tag], closeTimer := s.closeTimerStart r } with
        lineJobs := [], lineCmd := none }) := by
  have gated := takeGateAnswer_gated ha (State.runningItem_eq hq) hb hl hs
  rw [State.gated_full hn hb] at gated
  exact exec_roomPlain rfl (gated.trans (State.endJob_release hq)) (by simpa [Config.maxUnits] using hw) (by simp)

end

section
variable {s : State} {cmd : LineSend} {chars : List LineChar} {a : LineAnswer} {stage : LineStage} {j : LineJob}
  {tag : Nat}

/-- A PING answered with no other job: the line is empty (R135). -/
theorem exec_pingLast (ha : s.answerTo .ping chars = some (cmd, a)) (hu : s.station cmd.station ≠ .unused)
    (hq : s.lineJobs = [j]) :
    exec (.pingAnswer chars) s = .next
      { s.setStation cmd.station .online with lineJobs := [], lineCmd := none } := by
  have online := takePingAnswer_online ha hu
  rw [State.endJob_last (by simpa using hq)] at online
  exact exec_plain rfl online (by simp) (by simp)

/-- A PING answered: the next job starts on a state with the line free (R137). -/
theorem exec_pingNext {rest : List LineJob} {t : State} (ha : s.answerTo .ping chars = some (cmd, a))
    (hu : s.station cmd.station ≠ .unused) (hq : s.lineJobs = j :: rest)
    (hn : State.startJobs { s.setStation cmd.station .online with lineJobs := rest, lineCmd := none } = t)
    (hw : t.writeQueue = s.writeQueue) (hb : t.bays = s.bays) : exec (.pingAnswer chars) s = .next t := by
  have online := takePingAnswer_online ha hu
  have ended : (s.setStation cmd.station .online).endJob =
      State.startJobs { s.setStation cmd.station .online with lineJobs := rest, lineCmd := none } := by
    rw [State.endJob, State.setStation_lineJobs, hq]
    rfl
  exact exec_plain rfl (online.trans (ended.trans hn)) hw hb

/-- A station's state does not bear on the item count of a LABEL. -/
@[simp] theorem State.itemCount_setStation (b : Nat) (x : StationState) (l : Loan) :
    (s.setStation b x).itemCount l = s.itemCount l := by
  simp [State.itemCount]

@[simp] theorem State.labelStation_setStation (b : Nat) (x : StationState) :
    (s.setStation b x).labelStation = s.labelStation := State.setting_setStation ..

/-- A PING answered, the CONTAIN ITEM behind it stopped by its first check (R139). -/
theorem exec_pingRefused {why : Reason} {values : List Nat} (ha : s.answerTo .ping chars = some (cmd, a))
    (hu : s.station cmd.station ≠ .unused)
    (hq : s.lineJobs = [j, { kind := .contain tag, route := none, stage := .waiting }])
    (h : (s.setStation cmd.station .online).firstCheck tag = .error (why, values)) :
    exec (.pingAnswer chars) s = .next
      { (s.setStation cmd.station .online).notifyRefused .fp .containItem tag why values with
        lineJobs := [], lineCmd := none } :=
  exec_pingNext ha hu hq (State.startItem_refused rfl rfl h) (by simp)
    (by simp)

/-- A PING answered, the CONTAIN ITEM behind it stopped by an OFFLINE label station (R140). -/
theorem exec_pingOffline {l : Loan} {r : RouteNo} (ha : s.answerTo .ping chars = some (cmd, a))
    (hu : s.station cmd.station ≠ .unused)
    (hq : s.lineJobs = [j, { kind := .contain tag, route := none, stage := .waiting }])
    (h : (s.setStation cmd.station .online).firstCheck tag = .ok (l, r))
    (ho : (s.setStation cmd.station .online).station s.labelStation = .offline) :
    exec (.pingAnswer chars) s = .next
      { (s.setStation cmd.station .online).notifyRefused .fp .containItem tag .stationOffline [s.labelStation] with
        lineJobs := [], lineCmd := none } := by
  have label := State.labelStation_setStation (s := s) cmd.station .online
  rw [← label] at ho ⊢
  exact exec_pingNext ha hu hq (State.startItem_offline rfl rfl h ho) (by simp)
    (by simp)

/-- A PING answered, the LABEL of the CONTAIN ITEM behind it going out (R139). -/
theorem exec_pingLabel {l : Loan} {r : RouteNo} (ha : s.answerTo .ping chars = some (cmd, a))
    (hu : s.station cmd.station ≠ .unused)
    (hq : s.lineJobs = [j, { kind := .contain tag, route := none, stage := .waiting }])
    (h : (s.setStation cmd.station .online).firstCheck tag = .ok (l, r))
    (ho : (s.setStation cmd.station .online).station s.labelStation ≠ .offline) :
    exec (.pingAnswer chars) s = .next
      { s.setStation cmd.station .online with
        lineJobs := [{ kind := .contain tag, route := some r, stage := .label }]
        lineCmd := some
          { command := .label, station := s.labelStation
            chars := lineChars s.labelStation .label (labelData tag l.patron r l.medium (s.itemCount l) l.period)
            sent := 1, retries := none, phase := .sending } } := by
  have label := State.labelStation_setStation (s := s) cmd.station .online
  have items := State.itemCount_setStation (s := s) cmd.station .online l
  rw [← label] at ho ⊢
  rw [← items]
  exact exec_pingNext ha hu hq (State.startItem_label rfl rfl h ho) (by simp) (by simp)

end

/-- Settles O53: the answer within its time is taken by its command and the job running, the checks decide what a CONTAIN
ITEM goes on to, and the end of a PING starts the job behind it. -/
theorem lineAnswers : Obligations.LineAnswers := by
  intro s cmd limit chars hc hph
  refine ⟨exec_plain rfl rfl rfl rfl, fun late => ?late, fun hw => ⟨?item, ?ping⟩⟩
  case late =>
    exact ⟨exec_plain rfl (takeLabelAnswer_none (State.answerTo_late hc hph late)) rfl rfl,
      exec_plain rfl (takeGateAnswer_none (State.answerTo_late hc hph late)) rfl rfl,
      exec_plain rfl (takePingAnswer_none (State.answerTo_late hc hph late)) rfl rfl⟩
  case item =>
    intro tag r stage hq
    have running := State.runningItem_eq hq
    refine ⟨fun reason hn => ⟨exec_labelNak hc hph hw hq hn, exec_gateNak hc hph hw hq hn⟩, fun hk hp => ?_,
      fun hk hp => ?_⟩
    · have acked := State.answerTo_within hc hph hw hk hp
      have refused {why : Reason} (h : s.secondCheck tag r = some why) :=
        exec_jobRefused (i := .labelAnswer chars) rfl hq (takeLabelAnswer_refused acked running h)
      exact ⟨fun h => refused (State.secondCheck_unknown h),
        fun l h hwr hpk => refused (State.secondCheck_wrongState h hwr hpk),
        fun l h hs => ⟨fun hb => refused (State.secondCheck_binClosed h hs hb),
          fun hb ho => refused (State.secondCheck_offline h hs hb ho),
          fun hb ho => exec_labelGate hq acked (State.secondCheck_passed h hs hb ho)⟩⟩
    · have acked := State.answerTo_within hc hph hw hk hp
      refine ⟨fun hb => exec_jobRefused rfl hq (takeGateAnswer_binClosed acked running hb),
        fun hb hl => exec_jobRefused rfl hq (takeGateAnswer_unknown acked running hb hl),
        fun l hb hl hs hroom => ⟨fun hn => ?_, fun hn => ?_⟩⟩
      · exact exec_gateBagged hq acked hb hl hs hroom (by simpa using hn)
      · exact exec_gateReleased hq acked hb hl hs hroom (by simpa using hn)
  case ping =>
    rintro a stage rest hq hk rfl ⟨v, hv⟩ hu
    have acked := State.answerTo_within hc hph hw hk hv
    refine ⟨fun hr => exec_pingLast acked hu (hq.trans (by rw [hr])), fun a2 rest2 hr => ?_, fun tag hr => ?_⟩
    · exact exec_pingNext acked hu (hq.trans (by rw [hr])) (State.startPing rfl rfl) (by simp) (by simp)
    have queue := hq.trans (by rw [hr])
    refine ⟨fun h => exec_pingRefused acked hu queue (State.firstCheck_unknown (by simpa using h)),
      fun l h hwr hpk => exec_pingRefused acked hu queue (State.firstCheck_wrongState (by simpa using h) hwr hpk),
      fun l slot p h hs hrd => ⟨fun hb => ?_, fun hb ho => ?_, fun hb ho => ?_⟩⟩
    · have closed := State.firstCheck_binClosed (s := s.setStation cmd.station .online) (tag := tag) (by simpa using h)
        hs (by simpa using hrd) (by simpa using hb)
      rw [State.bin_setStation] at closed
      exact exec_pingRefused acked hu queue closed
    · exact exec_pingOffline acked hu queue
        (State.firstCheck_ok (by simpa using h) hs (by simpa using hrd) (by simpa using hb)) ho
    · exact exec_pingLabel acked hu queue
        (State.firstCheck_ok (by simpa using h) hs (by simpa using hrd) (by simpa using hb)) ho

/-! ### The timers: one equation per case of R132, R134 and R145 -/

section
variable {s : State} {cmd : LineSend} {limit n : Nat}

theorem takeLineCommandEnd_command (hc : s.lineCmd = some cmd) (hp : cmd.phase = .sending)
    (hk : cmd.command ≠ .gatesHome) :
    takeLineCommandEnd s =
      { s with
        lineCmd := some
          { cmd with phase := .awaiting (s.now + s.answerTime), retries := some (cmd.retries.getD s.lineRetries) } } := by
  simp [takeLineCommandEnd, hc, hp, hk]

theorem takeLineCommandEnd_broadcast (hc : s.lineCmd = some cmd) (hp : cmd.phase = .sending)
    (hk : cmd.command = .gatesHome) :
    takeLineCommandEnd s = { s with lineCmd := some { cmd with phase := .quiet (s.now + s.answerTime) } } := by
  simp [takeLineCommandEnd, hc, hp, hk]

theorem takeBroadcastQuietEnd_quiet (hc : s.lineCmd = some cmd) (hp : cmd.phase = .quiet limit) :
    takeBroadcastQuietEnd s = (s.expire limit).endJob := by
  simp [takeBroadcastQuietEnd, hc, hp]

theorem takeAnswerTimeExpiry_again (hc : s.lineCmd = some cmd) (hp : cmd.phase = .awaiting limit)
    (hr : cmd.retries = some n) (hn : cmd.sent ≤ n) :
    takeAnswerTimeExpiry s =
      { s.expire limit with lineCmd := some { cmd with sent := cmd.sent + 1, phase := .sending } } := by
  simp [takeAnswerTimeExpiry, State.awaited_eq hc hp, hr, hn]

theorem takeAnswerTimeExpiry_givenUp (hc : s.lineCmd = some cmd) (hp : cmd.phase = .awaiting limit)
    (hr : cmd.retries = some n) (hn : n < cmd.sent) :
    takeAnswerTimeExpiry s = (((s.expire limit).goOffline cmd).refuseSilent cmd).endJob := by
  simp [takeAnswerTimeExpiry, State.awaited_eq hc hp, hr, hn.not_ge]

theorem State.goOffline_online (h : s.station cmd.station = .online) :
    s.goOffline cmd = (s.setStation cmd.station .offline).notify .fp
      (note .stationOffline cmd.station [cmd.command.number, cmd.sent]) := by
  simp [State.goOffline, h]

@[simp] theorem State.goOffline_lineJobs : (s.goOffline cmd).lineJobs = s.lineJobs := by
  unfold State.goOffline
  split <;> simp

theorem State.refuseSilent_ping {a : Nat} {r : Option RouteNo} {stage : LineStage} {rest : List LineJob}
    (h : s.lineJobs = { kind := .ping a, route := r, stage := stage } :: rest) :
    s.refuseSilent cmd = s.notifyRefused .fp .pingStation a .stationOffline [] := by
  simp [State.refuseSilent, h]

theorem State.refuseSilent_item {tag : Nat} {r : Option RouteNo} {stage : LineStage} {rest : List LineJob}
    (h : s.lineJobs = { kind := .contain tag, route := r, stage := stage } :: rest) :
    s.refuseSilent cmd =
      s.refuseItem tag .stationOffline (if cmd.command = .label then [cmd.station] else []) := by
  simp [State.refuseSilent, h]

/-- The clock's move goes past the station's change. -/
theorem State.setStation_expire (b : Nat) (x : StationState) :
    (s.expire limit).setStation b x = (s.setStation b x).expire limit := by
  unfold State.setStation
  split <;> rfl

/-- A command given up with its job the last of the queue: the station OFFLINE, the job refused and gone (R134). -/
theorem exec_givenUp {j : LineJob} {code : ReqCode} {key : Nat} {values : List Nat} (hc : s.lineCmd = some cmd)
    (hp : cmd.phase = .awaiting limit) (hr : cmd.retries = some n) (hn : n < cmd.sent) (hq : s.lineJobs = [j])
    (ho : s.station cmd.station = .online)
    (hj : ((s.expire limit).goOffline cmd).refuseSilent cmd =
      ((s.expire limit).goOffline cmd).notifyRefused .fp code key .stationOffline values) :
    exec .answerTimeExpiry s = .next
      { ((s.setStation cmd.station .offline).notify .fp
            (note .stationOffline cmd.station [cmd.command.number, cmd.sent])).notifyRefused .fp code key
          .stationOffline values with
        now := max s.now limit, lineJobs := [], lineCmd := none } := by
  have gone := takeAnswerTimeExpiry_givenUp hc hp hr hn
  have offline : (s.expire limit).goOffline cmd = ((s.setStation cmd.station .offline).expire limit).notify .fp
      (note .stationOffline cmd.station [cmd.command.number, cmd.sent]) := by
    rw [State.goOffline_online (by simpa using ho), State.setStation_expire]
  rw [hj, offline, State.endJob_last (j := j) (by simpa [State.notifyRefused] using hq)] at gone
  refine exec_plain rfl (gone.trans ?_) (by simp) (by simp)
  rw [← State.setStation_now s cmd.station .offline]
  rfl

end

/-- A close timer's expiry releases the bin (R145, R146). -/
theorem takeCloseTimerExpiry_released {r : RouteNo} {limit : Nat} {s : State} (h : (s.bin r).closeTimer = some limit) :
    takeCloseTimerExpiry r s = (s.expire limit).releaseBin r [] := by
  simp [takeCloseTimerExpiry, h]

/-- The first and the last entry of a bin's list, as the notice gives them (R152). -/
theorem orZero_head?_map {α : Type} (f : α → Nat) (l : List α) : orZero (l.map f).head? = (l.head?.map f).getD 0 := by
  cases l <;> rfl

theorem orZero_getLast?_map {α : Type} (f : α → Nat) (l : List α) :
    orZero (l.map f).getLast? = (l.getLast?.map f).getD 0 := by
  rw [orZero_eq, List.getLast?_map]

/-- Settles O54: a timer of the line by the phase and the retries of its command, and a close timer by the release of its
bin. -/
theorem lineTimers : Obligations.LineTimers := by
  refine ⟨fun s cmd hc => ⟨fun hp hk => ?_, fun hp hk => ?_, fun limit j hp hq => ?_, fun limit n hp hr hn => ?_,
    fun limit n a stage hp hr hn hq ho => ?_, fun limit n tag route stage hp hr hn hq ho => ?_⟩,
    fun s r limit held ht hlist once found hw => ?release⟩
  · exact exec_plain rfl (takeLineCommandEnd_command hc hp hk) rfl rfl
  · exact exec_plain rfl (takeLineCommandEnd_broadcast hc hp hk) rfl rfl
  · exact exec_plain rfl ((takeBroadcastQuietEnd_quiet hc hp).trans (State.endJob_last (s := s.expire limit) hq)) rfl rfl
  · exact exec_plain rfl (takeAnswerTimeExpiry_again hc hp hr hn) rfl rfl
  · exact exec_givenUp hc hp hr hn hq ho (State.refuseSilent_ping (by simpa using hq))
  · exact exec_givenUp hc hp hr hn hq ho (State.refuseSilent_item (by simpa using hq))
  case release =>
    obtain ⟨mailed, kept, units⟩ := mailedLoans_spec (today := s.dayCount) (loans := s.loans) once found
    have released := (takeCloseTimerExpiry_released ht).trans (State.releaseBin_eq r [] (s.expire limit))
    have list : ((s.expire limit).bin r).list = held.map (fun x => x.1) := hlist
    rw [list, orZero_head?_map, orZero_getLast?_map, List.length_map, List.nil_append] at released
    have units : (mailedLoans (s.expire limit).dayCount (s.expire limit).loans (held.map (fun x => x.1))).2 =
      held.map (fun x => Change.loan x.1 (some (x.2.mail s.dayCount))) := units
    rw [units] at released
    exact ⟨_, mailed, kept, exec_roomPlain rfl released (by simpa [State.notifyBoth, Config.maxUnits] using hw)
      (by simp)⟩

end Sys2Proof.Machine
end

section
/-! SUPPORT. The commands of the requests by their class (R168): what each one is taken by, whatever its code; the overdue
scan's resuming; and a head whose application is held back. -/

namespace Sys2Proof.Machine

section
variable {s : State} {f : Frame} {code : ReqCode} {atOnce : Bool}

theorem exec_request_posted (h : requestClass code = .posted) :
    exec (requestCommand f atOnce code) s =
      .next (commit (requestCommand f atOnce code) (State.takePosted code f atOnce) s) := by
  cases code <;> simp only [requestClass, reduceCtorEq] at h <;> rfl

theorem exec_request_delayed (h : requestClass code = .delayed) :
    exec (requestCommand f atOnce code) s =
      .next (commit (requestCommand f atOnce code) (State.takeDelayed code f) s) := by
  cases code <;> simp only [requestClass, reduceCtorEq] at h <;> rfl

theorem exec_request_immediate (h : requestClass code = .immediate) : ∃ go : State → State,
    exec (requestCommand f atOnce code) s =
      .next (commit (requestCommand f atOnce code) (State.immediate code f go) s) := by
  cases code <;> simp only [requestClass, reduceCtorEq] at h <;> exact ⟨_, rfl⟩

/-- The checks that the code table alone makes, of length and port, are made for a request of every class (R170). -/
theorem exec_request_frameRefused {why : Reason} (hr : (s.port f.port).resetLine = false)
    (hc : frameCheck f code = some why) :
    exec (requestCommand f atOnce code) s = .next (s.replyRefused f.port why) := by
  cases h : requestClass code with
  | immediate =>
    obtain ⟨go, taken⟩ := exec_request_immediate (f := f) (atOnce := atOnce) (s := s) h
    exact exec_reply taken (by simp [State.immediate, hr, hc, State.replyRefused])
  | posted => exact exec_postedFrameRefused (exec_request_posted h) hr hc
  | delayed => exact exec_reply (exec_request_delayed h) (by simp [State.takeDelayed, hr, hc, State.replyRefused])

theorem frameCheck_length (h : f.payload.length ≠ payloadLength code) : frameCheck f code = some .malformed := by
  simp [frameCheck, h]

theorem frameCheck_port (hl : f.payload.length = payloadLength code) (h : takenOn code f.key.toNat f.port = false) :
    frameCheck f code = some .wrongPort := by
  simp [frameCheck, hl, frameKey, h]

theorem frameCheck_passed (hl : f.payload.length = payloadLength code) (h : takenOn code f.key.toNat f.port = true) :
    frameCheck f code = none := by
  simp [frameCheck, hl, frameKey, h]

theorem PostedReq.class_code (q : PostedReq) : requestClass q.code = .posted := by cases q <;> rfl

end

/-! ### The overdue scan's resuming (R60) -/

theorem State.resumeScan_eq (s : State) :
    s.resumeScan =
      { s with
        scan := if s.cp.notices.length < 64 then s.scan.map (fun sc => { sc with waiting := false }) else s.scan } := by
  cases h : s.scan with
  | none =>
    simp only [State.resumeScan, h, Option.map_none, ite_self]
    rw [← h]
  | some sc =>
    by_cases room : s.cp.notices.length < 64
    · simp [State.resumeScan, h, Config.maxNotices, room]
    · simp only [State.resumeScan, h, Config.maxNotices, room, if_false]
      rw [← h]

/-- An event held back that no timer brings moves no clock. -/
theorem State.hold_start (p : Port) (s : State) :
    s.hold (.postedApplicationStart p) =
      { s with waiting := s.waiting ++ [{ event := .postedApplicationStart p, awaited := .nothing }] } := by
  simp [State.hold, State.deadlineOf, State.awaits]

/-- The application of a head whose units the write queue has no place for is held back (R188). -/
theorem State.applyHead_held {p : Port} {q : PostedReq} {rest : List PostedReq} {s : State}
    (hq : (s.port p).posted = q :: rest) (hw : s.fits (applyPosted p q s) = false) :
    s.applyHead p = s.hold (.postedApplicationStart p) := by
  unfold State.applyHead
  rw [hq]
  simp only [hw]
  rfl

end Sys2Proof.Machine
end

section
/-! CERTIFICATES. The ports: the checks at the exchange (R170, R186), the posted queue (R171, R172), the delayed queue
(R174 to R177), notices (R180) and resets (R182, R183). -/

namespace Sys2Proof.Machine

/-! ### The checks at the exchange -/

section
variable {s : State} {f : Frame} {code : ReqCode} {atOnce : Bool}

theorem takeDelayed_malformed (hr : (s.port f.port).resetLine = false) (hc : frameCheck f code = none)
    (hk : queryKeyOk code f.key.toNat = false) : s.takeDelayed code f = s.replyRefused f.port .malformed := by
  simp [State.takeDelayed, hr, hc, frameKey, hk]

theorem takeDelayed_starting (hr : (s.port f.port).resetLine = false) (hc : frameCheck f code = none)
    (hk : queryKeyOk code f.key.toNat = true) (hm : s.mode = .starting) :
    s.takeDelayed code f = s.reply f.port .busy .none := by
  simp [State.takeDelayed, hr, hc, frameKey, hk, hm]

theorem takeDelayed_unformatted (hr : (s.port f.port).resetLine = false) (hc : frameCheck f code = none)
    (hk : queryKeyOk code f.key.toNat = true) (hm : s.mode = .unformatted) :
    s.takeDelayed code f = s.replyRefused f.port .notFormatted := by
  simp [State.takeDelayed, hr, hc, frameKey, hk, hm]

theorem takeDelayed_ready (hr : (s.port f.port).resetLine = false) (hc : frameCheck f code = none)
    (hk : queryKeyOk code f.key.toNat = true) (hm : s.mode = .ready) :
    s.takeDelayed code f = s.present f.port code f.key.toNat := by
  simp [State.takeDelayed, hr, hc, frameKey, hk, hm]

theorem takePosted_starting (hr : (s.port f.port).resetLine = false) (hc : frameCheck f code = none)
    (hp : (parsePosted code f.key.toNat f.payload).isSome = true) (hm : s.mode = .starting) :
    s.takePosted code f atOnce = s.reply f.port .busy .none := by
  obtain ⟨q, hq⟩ := Option.isSome_iff_exists.mp hp
  simp [State.takePosted, hr, hc, frameKey, hq, hm]

theorem takePosted_unformatted (hr : (s.port f.port).resetLine = false) (hc : frameCheck f code = none)
    (hp : (parsePosted code f.key.toNat f.payload).isSome = true) (hm : s.mode = .unformatted)
    (hf : code ≠ .formatRecords) : s.takePosted code f atOnce = s.replyRefused f.port .notFormatted := by
  obtain ⟨q, hq⟩ := Option.isSome_iff_exists.mp hp
  simp [State.takePosted, hr, hc, frameKey, hq, hm, hf]

theorem takePosted_ready {q : PostedReq} (hf : Spells f q) (hr : (s.port f.port).resetLine = false)
    (hm : s.mode = .ready) : s.takePosted q.code f atOnce = s.queue f.port q atOnce := by
  obtain ⟨hc, hq⟩ := hf
  simp [State.takePosted, hr, hc, hq, hm]

end

/-- Settles O26: the checks in their order, by the class of the request; each answers with a reply alone. -/
theorem refusedAtTheExchange : Obligations.RefusedAtTheExchange := by
  intro s f code atOnce hr
  refine ⟨fun hl => exec_request_frameRefused hr (frameCheck_length hl),
    fun hl ht => exec_request_frameRefused hr (frameCheck_port hl ht), fun hl ht => ?_⟩
  have passed := frameCheck_passed hl ht
  refine ⟨fun hc hm => exec_postedMalformed (exec_request_posted hc) hr passed hm,
    fun hc hk => exec_reply (exec_request_delayed hc) (takeDelayed_malformed hr passed hk), ?_⟩
  rintro (⟨hc, hp⟩ | ⟨hc, hk⟩)
  · exact ⟨fun hm => exec_reply (exec_request_posted hc) (takePosted_starting hr passed hp hm),
      fun hm hf => exec_reply (exec_request_posted hc) (takePosted_unformatted hr passed hp hm hf)⟩
  · exact ⟨fun hm => exec_reply (exec_request_delayed hc) (takeDelayed_starting hr passed hk hm),
      fun hm _ => exec_reply (exec_request_delayed hc) (takeDelayed_unformatted hr passed hk hm)⟩

/-! ### The posted queue -/

section
variable {s : State} {p : Port} {q : PostedReq} {atOnce : Bool}

/-- A request accepted that is not applied in the same event: behind another one, or with its queue held (R63, R171). -/
theorem State.queue_waits (hroom : (s.port p).posted.length < 32)
    (h : atOnce = false ∨ (s.port p).posted ≠ [] ∨ ((s.port p).applying = false ∧ p = .cp ∧ s.scan ≠ none)) :
    s.queue p q atOnce = s.setPort p
      { s.port p with
        posted := (s.port p).posted ++ [q]
        exchange := some { reply := .accepted, handOver := .none, ended := false } } := by
  have appended : (s.setPort p { s.port p with posted := (s.port p).posted ++ [q] }).reply p .accepted .none =
      s.setPort p
        { s.port p with
          posted := (s.port p).posted ++ [q]
          exchange := some { reply := .accepted, handOver := .none, ended := false } } := by
    simp [State.reply]
  simp only [State.queue, Config.maxPosted, if_pos hroom, appended]
  split
  next start =>
    rw [Bool.and_eq_true, List.isEmpty_iff] at start
    obtain ⟨now, alone⟩ := start
    obtain ⟨ha, hp, hs⟩ : (s.port p).applying = false ∧ p = .cp ∧ s.scan ≠ none := by simpa [now, alone] using h
    exact State.startPosted_none (.inr ⟨by simpa using ha, .inr ⟨hp, by simpa using hs⟩⟩)
  next => rfl

theorem State.queue_full (hfull : 32 ≤ (s.port p).posted.length) : s.queue p q atOnce = s.reply p .busy .none := by
  simp [State.queue, Config.maxPosted, hfull.not_gt]

/-- The command of a request that is accepted and waits in the posted queue. -/
theorem exec_requestQueued {f : Frame} (hf : Spells f q) (hm : s.mode = .ready) (hr : (s.port f.port).resetLine = false)
    (hroom : (s.port f.port).posted.length < 32)
    (h : atOnce = false ∨ (s.port f.port).posted ≠ [] ∨
      ((s.port f.port).applying = false ∧ f.port = .cp ∧ s.scan ≠ none)) :
    exec (requestCommand f atOnce q.code) s = .next (s.setPort f.port
      { s.port f.port with
        posted := (s.port f.port).posted ++ [q]
        exchange := some { reply := .accepted, handOver := .none, ended := false } }) :=
  exec_plain (exec_request_posted q.class_code) ((takePosted_ready hf hr hm).trans (State.queue_waits hroom h)) (by simp)
    (by simp)

end

/-- Settles O27: acceptance by the queue's length, the start of a head by whether its block has it, and the application of
the head by the place for its units. -/
theorem postedQueue : Obligations.PostedQueue := by
  refine ⟨fun s f q atOnce hf hm hr => ⟨exec_requestQueued hf hm hr, fun hfull => ?full⟩, fun s p h => ?none,
    fun s p q rest hq h => ⟨fun hw => ?fits, fun hlt hw => ?held⟩, fun s rest hq h => ?select⟩
  case full =>
    exact exec_reply (exec_request_posted q.class_code)
      ((takePosted_ready hf hr hm).trans (State.queue_full hfull))
  case none => exact exec_plain (g := takePostedApplicationStart p) rfl (State.startPosted_none h) rfl rfl
  case fits =>
    have head := State.startPosted_head (by simp [hq]) h
    rw [State.applyHead_fits (by simpa using hq) (State.fits_room hw)] at head
    exact exec_room (g := takePostedApplicationStart p) rfl head hw
  case held =>
    have head := State.startPosted_head (by simp [hq]) h
    rw [State.applyHead_held (by simpa using hq) (State.fits_full (by simpa using hlt) hw), State.hold_start] at head
    exact exec_plain (g := takePostedApplicationStart p) rfl (head.trans (by simp)) (by simp) (by simp)
  case select =>
    have head := State.startPosted_head (p := .cp) (s := s) (by simp [State.port, hq]) (h.imp_right (.imp_right fun hs _ => hs))
    have handed : ((s.setPort .cp { s.port .cp with applying := true, handed := false }).port .cp).posted =
        .selectNow :: rest := hq
    rw [State.applyHead_fits handed (State.fits_noUnit rfl)] at head
    refine exec_plain (g := takePostedApplicationStart .cp) rfl (head.trans ?_) rfl rfl
    simp only [applyPosted, applySelectNow, State.endPosted, PortUnit.endApplication, State.port, State.setPort, State.trigger,
      hq, List.tail_cons]

end Sys2Proof.Machine
end

section
/-! CERTIFICATES. The ports: the delayed queue (R174 to R177), notices (R169, R180) and resets (R182, R183). -/

namespace Sys2Proof.Machine

/-! ### A query presented: one equation per row of R174 -/

section
variable {s : State} {p : Port} {code : ReqCode} {key : Nat} {d : Delayed}

theorem State.present_complete {r : QueryResult} {limit : Nat}
    (h : (s.port p).delayed.find? (fun d => d.is code key) = some d) (hd : d.condition = .complete r limit) :
    s.present p code key = s.reply p (.doneQuery r) (.entry code key) := by
  simp [State.present, h, hd]

theorem State.present_waiting (h : (s.port p).delayed.find? (fun d => d.is code key) = some d)
    (hd : d.condition = .waiting) : s.present p code key = s.reply p .retry .none := by
  simp [State.present, h, hd]

theorem State.present_executing {r : QueryResult} (h : (s.port p).delayed.find? (fun d => d.is code key) = some d)
    (hd : d.condition = .executing r) : s.present p code key = s.reply p .retry .none := by
  simp [State.present, h, hd]

theorem State.present_new (h : (s.port p).delayed.find? (fun d => d.is code key) = none)
    (hroom : (s.port p).delayed.length < 8) :
    s.present p code key = s.setPort p
      { s.port p with
        delayed := (s.port p).delayed ++
          [{ code := code, key := key, condition := .waiting, mark := (s.port p).posted.length }]
        exchange := some { reply := .retry, handOver := .none, ended := false } } := by
  simp only [State.present, h, Config.maxDelayed, hroom, if_true, State.reply, State.port_setPort_self,
    State.setPort_setPort]

theorem State.present_full (h : (s.port p).delayed.find? (fun d => d.is code key) = none)
    (hfull : 8 ≤ (s.port p).delayed.length) : s.present p code key = s.reply p .busy .none := by
  simp [State.present, h, Config.maxDelayed, hfull.not_gt]

/-- A query has no payload, and either port takes it (R170). -/
theorem frameCheck_delayed {f : Frame} (hc : requestClass code = .delayed) (hp : f.payload = []) :
    frameCheck f code = none := by
  cases code <;> simp only [requestClass, reduceCtorEq] at hc <;> simp [frameCheck, payloadLength, takenOn, hp]

end

/-- Settles O28: the entry of the same code and key, and without one the room in the queue, decide the reply. -/
theorem queryPresented : Obligations.QueryPresented := by
  intro s f code atOnce hc hr hp hk hm
  have presented := takeDelayed_ready hr (frameCheck_delayed hc hp) hk hm
  have taken := exec_request_delayed (s := s) (f := f) (atOnce := atOnce) hc
  exact ⟨fun d r limit h hd => exec_reply taken (presented.trans (State.present_complete h hd)),
    fun d h hd => exec_reply taken (presented.trans (State.present_waiting h hd)),
    fun d r h hd => exec_reply taken (presented.trans (State.present_executing h hd)),
    fun h hroom => exec_plain taken (presented.trans (State.present_new h hroom)) (by simp) (by simp),
    fun h hfull => exec_reply taken (presented.trans (State.present_full h hfull))⟩

/-! ### The start of a delayed entry (R175, R176) -/

/-- Entries that have started are passed. -/
theorem startEntry_append (answer : ReqCode → Nat → QueryResult) {front : List Delayed} (rest : List Delayed)
    (h : ∀ e ∈ front, e.condition ≠ .waiting) : startEntry answer (front ++ rest) = front ++ startEntry answer rest := by
  induction front with
  | nil => rfl
  | cons e front ih =>
    have later := ih fun x hx => h x (List.mem_cons_of_mem _ hx)
    cases hc : e.condition with
    | waiting => exact absurd hc (h e (List.mem_cons_self ..))
    | executing r => simp [startEntry, hc, later]
    | complete r limit => simp [startEntry, hc, later]

theorem startEntry_waiting (answer : ReqCode → Nat → QueryResult) {d : Delayed} (rest : List Delayed)
    (h : d.condition = .waiting) :
    startEntry answer (d :: rest) =
      (if d.mark = 0 then { d with condition := .executing (answer d.code d.key) } else d) :: rest := by
  simp [startEntry, h]

/-! ### The seven answers -/

/-- A stopped channel's view shows nothing but its state (R129). -/
theorem Channel.view_cleared : Channel.cleared.view =
    { state := .idle, stopping := false, stopCause := none, tag := none, bay := none, index := 0, title := none
      setInUse := 0, first := 0, last := 0, now := 0, count1 := 0, count2 := 0, block := 0, attempts := 0 } := rfl

/-- A channel that is not IDLE shows the title it writes or verifies, and its context as held (R129). -/
theorem Channel.view_busy {x : Channel} (h : x.state ≠ .idle) : x.view =
    { state := x.state, stopping := x.stopping, stopCause := x.stopCause, tag := x.tag, bay := x.bay
      index := x.index
      title := if x.state = .header ∨ x.state = .image ∨ x.state = .verify then
          if x.index = 0 then none else x.titles[x.index - 1]?.map PlanEntry.title
        else none
      setInUse := if x.second then 2 else 1
      first := if x.second then x.set2.first else x.set1.first
      last := if x.second then x.set2.last else x.set1.last
      now := if x.second then x.set2.now else x.set1.now
      count1 := x.set1.count, count2 := x.set2.count, block := x.block, attempts := x.attempts } := by
  have shown : x.state.showsTitle = true ↔ x.state = .header ∨ x.state = .image ∨ x.state = .verify := by
    cases x.state <;> simp [ChanState.showsTitle]
  have title : x.entry.map PlanEntry.title = if x.index = 0 then none else x.titles[x.index - 1]?.map PlanEntry.title := by
    unfold Channel.entry
    split <;> rfl
  simp only [Channel.view, shown, title, h, if_false, Channel.setInUse, apply_ite RunSet.first, apply_ite RunSet.last,
    apply_ite RunSet.now]

/-- The routes that a station gates, in rising order (R136). -/
theorem State.routesOf_spec (s : State) (a : Nat) : (s.routesOf a).Pairwise (fun x y => x < y) ∧
    ∀ r, r ∈ s.routesOf a ↔ r < 32 ∧ s.setting (128 + 4 * r) = a := by
  constructor
  · refine List.Pairwise.map _ (fun _ _ h => h) (List.Pairwise.filter _ (List.pairwise_lt_finRange 32))
  · intro r
    simp only [State.routesOf, List.mem_map, List.mem_filter, List.mem_finRange, true_and, State.gateStation, beq_iff_eq]
    constructor
    · rintro ⟨x, hx, rfl⟩
      exact ⟨x.isLt, hx⟩
    · rintro ⟨hr, hs⟩
      exact ⟨⟨r, hr⟩, hs, rfl⟩

theorem State.answer_channelQuery (s : State) (c : Chan) {key : Nat} (h : key = match c with | .a => 0 | .b => 1) :
    s.answer .channelQuery key = .channel (s.chan c).view := by
  cases c <;> subst h <;> rfl

theorem State.answer_binQuery (s : State) (r : RouteNo) : s.answer .binQuery r.val = .bin (s.binView r) := by
  have named : routeOf r.val = some r := by simp [routeOf]
  simp only [State.answer, named]

theorem State.answer_parameterQuery (s : State) {key : Nat} {row : Param} (h : paramOf key = some row) :
    s.answer .parameterQuery key =
      .parameter
        (match Table.find key s.settings with
        | some v => v
        | none => row.default) row.low row.high row.default row.port := by
  simp only [State.answer, h, State.setting, paramDefault]
  cases Table.find key s.settings <;> rfl

/-- Settles O29: the entries started are passed and the mark decides; each query's answer is the record or the view that
the model reads. -/
theorem delayedEntryStarts : Obligations.DelayedEntryStarts := by
  refine ⟨fun s p front rest d hq hf hd => ⟨fun hm => ?starts, fun hm => ?waits⟩, fun s key => ?answers⟩
  case starts =>
    have started : takeDelayedEntryStart p s = s.setPort p
        { s.port p with
          delayed := front ++ { d with condition := .executing (s.answer d.code d.key) } :: rest } := by
      simp only [takeDelayedEntryStart, hq, startEntry_append _ _ hf, startEntry_waiting _ _ hd, if_pos hm]
    exact exec_plain rfl started (by simp) (by simp)
  case waits =>
    have stays : takeDelayedEntryStart p s = s := by
      simp only [takeDelayedEntryStart, hq, startEntry_append _ _ hf, startEntry_waiting _ _ hd, if_neg hm]
      exact State.setPort_self (by rw [← hq])
    exact exec_plain rfl stays rfl rfl
  case answers =>
    refine ⟨fun t h => by simp [State.answer, h], fun h => by simp [State.answer, h],
      fun slot p h => by simp [State.answer, h], fun h => by simp [State.answer, h],
      fun l h => by simp [State.answer, h], fun h => by simp [State.answer, h], fun c hc => ⟨fun hx => ?_, fun hx => ?_⟩,
      ⟨s.routesOf key, (s.routesOf_spec key).1, (s.routesOf_spec key).2, rfl⟩, fun r hr => ?_,
      fun row hrow => s.answer_parameterQuery hrow⟩
    · rw [s.answer_channelQuery c hc, hx, Channel.view_cleared]
    · rw [s.answer_channelQuery c hc, Channel.view_busy hx]
    · subst hr
      exact s.answer_binQuery r

/-! ### Delayed results (R176, R177) -/

section
variable {s : State} {p : Port} {front rest : List Delayed} {d : Delayed}

/-- An entry answers its own code and key. -/
theorem Delayed.is_self (d : Delayed) : d.is d.code d.key = true := by simp [Delayed.is]

theorem Delayed.is_other {d e : Delayed} (h : ¬(e.code = d.code ∧ e.key = d.key)) : e.is d.code d.key = false := by
  simpa [Delayed.is] using h

/-- A change of the entry of a code and key changes that entry alone. -/
theorem map_entry (h : ∀ e ∈ front ++ rest, ¬(e.code = d.code ∧ e.key = d.key)) (g : Delayed → Delayed) :
    (front ++ d :: rest).map (fun e => if e.is d.code d.key then g e else e) = front ++ g d :: rest := by
  have same : ∀ l : List Delayed, (∀ e ∈ l, e ∈ front ++ rest) →
      l.map (fun e => if e.is d.code d.key then g e else e) = l := by
    intro l hl
    conv_rhs => rw [← List.map_id l]
    refine List.map_congr_left fun e he => ?_
    rw [Delayed.is_other (h e (hl e he))]
    rfl
  rw [List.map_append, List.map_cons, Delayed.is_self, same front fun e he => List.mem_append_left _ he,
    same rest fun e he => List.mem_append_right _ he]
  rfl

/-- The freeing of the entry of a code and key leaves the others (R177). -/
theorem filter_entry (h : ∀ e ∈ front ++ rest, ¬(e.code = d.code ∧ e.key = d.key)) :
    (front ++ d :: rest).filter (fun e => !e.is d.code d.key) = front ++ rest := by
  have same : ∀ l : List Delayed, (∀ e ∈ l, e ∈ front ++ rest) → l.filter (fun e => !e.is d.code d.key) = l := by
    intro l hl
    refine List.filter_eq_self.mpr fun e he => ?_
    rw [Delayed.is_other (h e (hl e he))]
    rfl
  rw [List.filter_append, List.filter_cons_of_neg (by simp [Delayed.is_self]),
    same front fun e he => List.mem_append_left _ he, same rest fun e he => List.mem_append_right _ he]

theorem find_entry (h : ∀ e ∈ front ++ rest, ¬(e.code = d.code ∧ e.key = d.key)) :
    (front ++ d :: rest).find? (fun e => e.is d.code d.key) = some d := by
  have before : front.find? (fun e => e.is d.code d.key) = none :=
    List.find?_eq_none.mpr fun e he => by simp [Delayed.is_other (h e (List.mem_append_left _ he))]
  simp [List.find?_append, before, Delayed.is_self]

end

/-- Settles O30: code and key name one entry, which alone is finished, or freed with its notice. -/
theorem delayedResults : Obligations.DelayedResults := by
  intro s p front rest d hq alone
  refine ⟨fun r hd => ?complete, fun r limit hd => ?discarded⟩
  case complete =>
    have finished : d.finish (s.now + s.discardTime p) = { d with condition := .complete r (s.now + s.discardTime p) } := by
      simp [Delayed.finish, hd]
    have carried : takeDelayedResultComplete p d.code d.key s = s.setPort p
        { s.port p with
          delayed := front ++ { d with condition := .complete r (s.now + s.discardTime p) } :: rest } := by
      simp only [takeDelayedResultComplete, hq, map_entry alone, finished]
    exact exec_plain rfl carried (by simp) (by simp)
  case discarded =>
    have running : (s.port p).discardLimit d.code d.key = some limit := by
      simp [PortUnit.discardLimit, hq, find_entry alone, hd]
    have freed : takeDiscardTimerExpiry p d.code d.key s = State.notify p
        (note .resultDiscarded d.key [codeNumber d.code])
        ((s.expire limit).setPort p { s.port p with delayed := front ++ rest }) := by
      have port : (s.expire limit).port p = s.port p := by cases p <;> rfl
      simp only [takeDiscardTimerExpiry, running, port, PortUnit.freeEntry, hq, filter_entry alone]
    exact exec_plain rfl freed (by simp) (by simp)

/-! ### Notices handed over and the ends of replies (R169, R180) -/

section
variable {s : State} {p : Port} {x : Exchange}

/-- The end of a reply: what it hands over has left the port, and a scan that waits for the CP queue resumes. -/
theorem takeReplyEnd_eq {u : PortUnit} (hx : (s.port p).exchange = some x) (he : x.ended = false)
    (hu : (s.port p).handOver x.handOver = u) :
    takeReplyEnd p s = State.setPort p { u with exchange := some { x with ended := true } }
      { s with
        scan := if p = .cp ∧ u.notices.length < 64 then s.scan.map (fun sc => { sc with waiting := false })
          else s.scan } := by
  cases p with
  | cp =>
    simp only [takeReplyEnd, hx, he, hu, State.resumeScan_eq]
    by_cases room : u.notices.length < 64 <;> simp [State.setPort, room]
  | fp => simp [takeReplyEnd, hx, he, hu, State.setPort]

theorem exec_replyEnd {u : PortUnit} (hx : (s.port p).exchange = some x) (he : x.ended = false)
    (hu : (s.port p).handOver x.handOver = u) :
    exec (.replyEnd p) s = .next (State.setPort p { u with exchange := some { x with ended := true } }
      { s with
        scan := if p = .cp ∧ u.notices.length < 64 then s.scan.map (fun sc => { sc with waiting := false })
          else s.scan }) :=
  exec_plain rfl (takeReplyEnd_eq hx he hu) (by simp) (by simp)

/-- Where no scan waits for the port's queue, the end of a reply changes the port alone. -/
theorem exec_replyEnd_noScan {u : PortUnit} (hx : (s.port p).exchange = some x) (he : x.ended = false)
    (hu : (s.port p).handOver x.handOver = u) (hs : p = .fp ∨ s.scan = none) :
    exec (.replyEnd p) s = .next (s.setPort p { u with exchange := some { x with ended := true } }) := by
  have idle : (if p = .cp ∧ u.notices.length < 64 then s.scan.map (fun sc => { sc with waiting := false })
      else s.scan) = s.scan := by
    rcases hs with rfl | hs
    · simp
    · simp [hs]
  rw [exec_replyEnd hx he hu, idle]

/-- The end of a DONE reply frees the COMPLETE entry it answered with (R169). -/
theorem PortUnit.handOver_entry {u : PortUnit} {code : ReqCode} {key limit : Nat} {d : Delayed} {r : QueryResult}
    (hf : u.delayed.find? (fun d => d.is code key) = some d) (hd : d.condition = .complete r limit) :
    u.handOver (.entry code key) = { u with delayed := u.delayed.filter (fun d => !d.is code key) } := by
  have done : u.delayed.any (fun d => d.is code key && d.completed) = true :=
    List.any_eq_true.mpr ⟨d, List.mem_of_find?_eq_some hf, by
      have named : d.is code key = true := by simpa using List.find?_some hf
      simp [named, Delayed.completed, hd]⟩
  simp only [PortUnit.handOver, if_pos done, PortUnit.freeEntry]

end

/-- Settles O31: TAKE NOTICE is a reply alone; the end of a reply hands over what its exchange says. -/
theorem takeNoticeAndReplyEnd : Obligations.TakeNoticeAndReplyEnd := by
  refine ⟨fun s f hr hp => ?take, fun s p x hx he => ⟨fun h => ?given, fun h => ?empty, fun code key d r limit h hf hd hs => ?done,
    fun h hs => ?other⟩⟩
  case take =>
    have checked : frameCheck f .takeNotice = none := by simp [frameCheck, payloadLength, takenOn, hp]
    exact exec_immediateReply rfl hr checked rfl
  case given => exact exec_replyEnd hx he (congrArg _ h)
  case empty => exact exec_replyEnd hx he (congrArg _ h)
  case done => exact exec_replyEnd_noScan hx he ((congrArg _ h).trans (PortUnit.handOver_entry hf hd)) hs
  case other => exact exec_replyEnd_noScan hx he (congrArg _ h) hs

/-! ### Port resets (R182, R183) -/

section
variable {s : State} {p : Port}

/-- A port reset empties the port's queues, and an emptied CP notice queue lets a waiting scan resume. -/
theorem State.resetPort_eq : s.resetPort p = State.setPort p (s.port p).reset
    { s with scan := if p = .cp then s.scan.map (fun sc => { sc with waiting := false }) else s.scan } := by
  cases p with
  | cp =>
    simp only [State.resetPort, State.resumeScan_eq]
    simp [State.setPort, PortUnit.reset]
  | fp => simp [State.resetPort, State.setPort]

theorem takePortResetLine_low (hr : (s.port p).resetLine = false) :
    takePortResetLine p s = State.setPort p { (s.port p).reset with exchange := none, resetLine := true }
      { s with scan := if p = .cp then s.scan.map (fun sc => { sc with waiting := false }) else s.scan } := by
  simp [takePortResetLine, hr, State.resetPort_eq]

theorem exec_portResetLine (hr : (s.port p).resetLine = false) :
    exec (.portResetLine p) s = .next (State.setPort p { (s.port p).reset with exchange := none, resetLine := true }
      { s with scan := if p = .cp then s.scan.map (fun sc => { sc with waiting := false }) else s.scan }) :=
  exec_plain rfl (takePortResetLine_low hr) (by simp) (by simp)

end

/-- Settles O33: both resets leave the port's reset queues; a request just accepted is no request in application, and so
goes with its queue. -/
theorem portResets : Obligations.PortResets := by
  refine ⟨fun s f hr hp => ?request, fun s p hr => exec_portResetLine hr,
    fun s p => exec_plain (g := takePortResetLineRelease p) rfl rfl (by simp) (by simp),
    fun s f q hf hm hr ha hroom => ?accepted⟩
  case request =>
    have checked : frameCheck f .portReset = none := by simp [frameCheck, payloadLength, takenOn, hp]
    have reset : takePortReset f s = State.setPort f.port
        { (s.port f.port).reset with exchange := some { reply := .doneReset, handOver := .none, ended := false } }
        { s with scan := if f.port = .cp then s.scan.map (fun sc => { sc with waiting := false }) else s.scan } := by
      rw [takePortReset, State.immediate_taken hr checked]
      simp [State.reply, State.resetPort_eq]
    exact exec_plain rfl reset (by simp) (by simp)
  case accepted =>
    refine ⟨_, _, exec_requestQueued hf hm hr hroom (.inl rfl), by simp, exec_portResetLine (by simpa using hr), ?_, ?_⟩
    · simp [PortUnit.reset, ha]
    · simp [PortUnit.reset, ha]

end Sys2Proof.Machine
end

section
/-! CERTIFICATES. The withdrawal walk, restorations and decreases (R17, R18, R35, R36, R29), ADVANCE DAY and the overdue
scan (R59, R60). -/

namespace Sys2Proof.Machine

/-- A command whose event fits the write queue and leaves the bays alone: the event's own effect. -/
theorem exec_fitsPlain {i e : Instr} {g : State → State} {s t : State} (hi : exec i s = .next (commit e g s))
    (ht : g s = t) (hf : s.fits t = true) (hb : t.bays = s.bays) : exec i s = .next t := by
  subst ht
  rw [hi, commit, if_pos hf, lampAfter_same hb]

/-! ### The withdrawal walk -/

section
variable {s : State} {w : Walk} {slot : Nat} {p : Patron}

@[simp] theorem State.dropTitle_writeQueue (n : Nat) (s : State) :
    (s.dropTitle n).writeQueue = s.writeQueue ++ [[.title n none]] := rfl

@[simp] theorem State.dropTitle_bays (n : Nat) (s : State) : (s.dropTitle n).bays = s.bays := rfl

@[simp] theorem State.freeRuns_writeQueue (c : CartTitle) (s : State) : (s.freeRuns c).writeQueue = s.writeQueue := rfl

@[simp] theorem State.freeRuns_bays (c : CartTitle) (s : State) : (s.freeRuns c).bays = s.bays := rfl

theorem takeWithdrawalWalkStep_next (hw : s.walk = some w)
    (h : s.patrons.find? (fun e => decide (w.next ≤ e.1) && e.2.wants.contains w.title) = some (slot, p)) :
    takeWithdrawalWalkStep s =
      { s.savePatron slot { p with wants := p.wants.filter (fun x => x != w.title) } with
        walk := some { w with next := slot + 1, changed := w.changed + 1 } } := by
  simp only [takeWithdrawalWalkStep, hw, h, State.saveWants]

theorem takeWithdrawalWalkStep_last (hw : s.walk = some w)
    (h : s.patrons.find? (fun e => decide (w.next ≤ e.1) && e.2.wants.contains w.title) = none) :
    takeWithdrawalWalkStep s = State.retirementOutcome w.title { s with walk := none } := by
  simp only [takeWithdrawalWalkStep, hw, h]

/-- The end of the retirement of a volume title: on loan, or freed (R17). -/
theorem State.retirementOutcome_volume {n : Nat} {m : Bool} {v : VolTitle}
    (h : s.title n = some { withdrawing := m, body := .vol v }) :
    s.retirementOutcome n = State.endPosted .cp
      (if v.onShelf < v.owned then
        State.notifyRefused .cp .retireTitle n .onLoan [v.owned, v.onShelf]
          (s.putTitle n { withdrawing := false, body := .vol v })
      else s.dropTitle n) := by
  by_cases out : v.onShelf < v.owned <;> simp [State.retirementOutcome, h, out, State.refuse]

/-- The end of the retirement of a cartridge title: kept RETIRING while pinned or DAMAGED, else freed (R18). -/
theorem State.retirementOutcome_cart {n : Nat} {m : Bool} {c : CartTitle}
    (h : s.title n = some { withdrawing := m, body := .cart c }) (hc : c.state ≠ .retiring) :
    s.retirementOutcome n = State.endPosted .cp
      (if c.state = .damaged ∨ (c.state = .resident ∧ c.pins ≠ 0) then
        s.saveTitle n { withdrawing := false, body := .cart { c with state := .retiring } }
      else (s.freeRuns c).dropTitle n) := by
  simp only [State.retirementOutcome, h]
  cases hs : c.state with
  | retiring => exact absurd hs hc
  | absent => simp
  | staging => simp
  | damaged => simp
  | resident => by_cases hp : c.pins = 0 <;> simp [hp]

end

/-! ### Restorations and decreases -/

section
variable {s : State}

/-- The operand picks a waiting request (log entry 7). -/
theorem pickFrom_eq {α : Type} {i : Nat} {l : List α} {x : α} (h : l[i]? = some x) :
    pickFrom i l = some (x, l.eraseIdx i) := by
  obtain ⟨hi, rfl⟩ := List.getElem?_eq_some_iff.mp h
  simp [pickFrom, hi]

/-- A restoration of an enrolled reader (R36, R37). -/
theorem State.restore_eq {r : Restoration} {slot : Nat} {p : Patron} (h : s.reader r.patron = some (slot, p)) :
    s.restore r =
      (let back := r.titles.filter (fun n => s.wantable n && (s.liveLoanNaming r.patron n).isNone)
       let whole := back ++ p.wants.filter (fun x => !back.contains x)
       let q := { p with loansOut := p.loansOut - 1, wants := whole.take 24 }
       let u := State.trigger (if whole.take 24 = p.wants then s.putPatron slot q else s.savePatron slot q)
       if whole.drop 24 = [] then u else u.notify .cp (note .wantDropped p.number (whole.drop 24))) := by
  simp only [State.restore, h, State.restorable, Config.maxWants]
  congr 1
  simp

/-- A decrease of an enrolled reader (R29). -/
theorem State.lowerLoansOut_enrolled {number slot : Nat} {p : Patron} (h : s.reader number = some (slot, p)) :
    s.lowerLoansOut number = (s.putPatron slot { p with loansOut := p.loansOut - 1 }).trigger := by
  simp only [State.lowerLoansOut, h]

/-- A restoration hands at most one unit and leaves the bays alone. -/
theorem State.restore_unit (r : Restoration) (s : State) : (s.restore r).bays = s.bays ∧
    (s.restore r).writeQueue.length ≤ s.writeQueue.length + 1 := by
  cases h : s.reader r.patron with
  | none => simp [State.restore, h]
  | some e =>
    rw [State.restore_eq h]
    simp only
    split_ifs <;> simp

end

/-- Settles O41: the next slot of the walk, and past the last the title's record; the request picked and its reader's
record. -/
theorem patronTableEvents : Obligations.PatronTableEvents := by
  refine ⟨fun s w slot p hw h hroom => ?step, fun s w hw h hroom => ⟨fun m v ht => ?volume, fun m c ht hc => ?cart⟩,
    fun s i r slot p hi hr hroom => ?restoration, fun s i number slot p hi hr => ?decrease⟩
  case step =>
    exact exec_roomPlain rfl (takeWithdrawalWalkStep_next hw h) (by simpa [Config.maxUnits] using hroom) (by simp)
  case volume =>
    have ended := (takeWithdrawalWalkStep_last hw h).trans
      (State.retirementOutcome_volume (s := { s with walk := none }) ht)
    by_cases out : v.onShelf < v.owned
    · rw [if_pos out] at ended ⊢
      exact exec_roomPlain rfl ended (by simpa [Config.maxUnits] using hroom.le) (by simp)
    · rw [if_neg out] at ended ⊢
      exact exec_roomPlain rfl ended (by simpa [Config.maxUnits] using hroom) (by simp)
  case cart =>
    have ended := (takeWithdrawalWalkStep_last hw h).trans
      (State.retirementOutcome_cart (s := { s with walk := none }) ht hc)
    by_cases keep : c.state = .damaged ∨ (c.state = .resident ∧ c.pins ≠ 0)
    · rw [if_pos keep] at ended ⊢
      exact exec_roomPlain rfl ended (by simpa [Config.maxUnits] using hroom) (by simp)
    · rw [if_neg keep] at ended ⊢
      exact exec_roomPlain rfl ended (by simpa [Config.maxUnits] using hroom) (by simp)
  case restoration =>
    have taken : takeRestoration i s = State.restore r { s with restorations := s.restorations.eraseIdx i } := by
      simp only [takeRestoration, pickFrom_eq hi]
    obtain ⟨bays, units⟩ := State.restore_unit r { s with restorations := s.restorations.eraseIdx i }
    have restored := exec_roomPlain (i := .restoration i) rfl taken (units.trans hroom) bays
    exact restored.trans (congrArg Host.Outcome.next
      (State.restore_eq (s := { s with restorations := s.restorations.eraseIdx i }) hr))
  case decrease =>
    have taken : takeLoansOutDecrease i s =
        State.lowerLoansOut number { s with decreases := s.decreases.eraseIdx i } := by
      simp only [takeLoansOutDecrease, pickFrom_eq hi]
    exact exec_plain rfl (taken.trans (State.lowerLoansOut_enrolled (slot := slot) (p := p) hr)) rfl rfl

/-! ### ADVANCE DAY and the overdue scan (R59, R60) -/

section
variable {s t : State} {sc : Scan} {tag : Nat} {l : Loan}

/-- The end of a scan, by what stands at the head of the CP queue. -/
theorem State.endScan_advanceDay (ha : s.cp.applying = true) (hq : s.cp.posted.head? = some .advanceDay) :
    s.endScan = State.endPosted .cp { s with scan := none } := by
  simp [State.endScan, ha, hq]

theorem State.endScan_empty (ha : s.cp.applying = false) (hq : s.cp.posted = []) :
    s.endScan = { s with scan := none } := by
  simp only [State.endScan, ha, Bool.false_and, PortUnit.handHead_empty hq]
  rfl

theorem State.endScan_head (ha : s.cp.applying = false) (hq : s.cp.posted ≠ []) :
    s.endScan = { s with scan := none, cp := { s.cp with applying := true, handed := true } } := by
  simp only [State.endScan, ha, Bool.false_and, PortUnit.handHead_head ha hq]
  rfl

/-- A visit that ends the scan, by what stands at the head of the CP queue. -/
theorem exec_scanEnds (h : takeOverdueScanVisit s = t.endScan) (hf : t.writeQueue = s.writeQueue ∨
    t.writeQueue.length ≤ 128) (hb : t.bays = s.bays) :
    (t.cp.applying = true → t.cp.posted.head? = some .advanceDay →
      exec .overdueScanVisit s = .next (State.endPosted .cp { t with scan := none })) ∧
    (t.cp.applying = false → t.cp.posted = [] → exec .overdueScanVisit s = .next { t with scan := none }) ∧
    (t.cp.applying = false → t.cp.posted ≠ [] →
      exec .overdueScanVisit s = .next { t with scan := none, cp := { t.cp with applying := true, handed := true } }) := by
  have fits {u : State} (hu : u.writeQueue = t.writeQueue) : s.fits u = true := by
    rcases hf with hf | hf
    · exact State.fits_noUnit (hu.trans hf)
    · exact State.fits_room (hu ▸ hf)
  exact ⟨fun ha hq => exec_fitsPlain rfl (h.trans (State.endScan_advanceDay ha hq)) (fits (by simp)) (by simpa using hb),
    fun ha hq => exec_fitsPlain rfl (h.trans (State.endScan_empty ha hq)) (fits rfl) hb,
    fun ha hq => exec_fitsPlain rfl (h.trans (State.endScan_head ha hq)) (fits rfl) hb⟩

theorem State.scanVisited_more (h : Table.above tag s.loans ≠ none) :
    s.scanVisited tag = { s with scan := some { cursor := tag, waiting := false } } := by
  simp [State.scanVisited, Option.isSome_iff_ne_none, h]

theorem State.scanVisited_last (h : Table.above tag s.loans = none) : s.scanVisited tag = s.endScan := by
  simp [State.scanVisited, h]

theorem Loan.late_iff {today : Nat} : l.late today = true ↔ l.state = .mailed ∧ ∃ d, l.dueDay = some d ∧ d < today := by
  cases h : l.dueDay <;> simp [Loan.late, h]

theorem takeOverdueScanVisit_waits (hs : s.scan = some sc) (hw : sc.waiting = true) : takeOverdueScanVisit s = s := by
  simp [takeOverdueScanVisit, hs, hw]

theorem takeOverdueScanVisit_end (hs : s.scan = some sc) (hw : sc.waiting = false)
    (ha : Table.above sc.cursor s.loans = none) : takeOverdueScanVisit s = s.endScan := by
  simp [takeOverdueScanVisit, hs, hw, ha]

theorem takeOverdueScanVisit_passed (hs : s.scan = some sc) (hw : sc.waiting = false)
    (ha : Table.above sc.cursor s.loans = some (tag, l)) (hl : l.late s.dayCount = false) :
    takeOverdueScanVisit s = s.scanVisited tag := by
  simp [takeOverdueScanVisit, hs, hw, ha, hl]

theorem takeOverdueScanVisit_full (hs : s.scan = some sc) (hw : sc.waiting = false)
    (ha : Table.above sc.cursor s.loans = some (tag, l)) (hl : l.late s.dayCount = true)
    (hn : 64 ≤ s.cp.notices.length) : takeOverdueScanVisit s = { s with scan := some { sc with waiting := true } } := by
  simp [takeOverdueScanVisit, hs, hw, ha, hl, Config.maxNotices, hn.not_gt]

/-- A late loan marked OVERDUE, with its notice (R60). -/
def State.overdue (tag : Nat) (l : Loan) (due : Nat) (s : State) : State :=
  (s.saveLoan tag { l with state := .overdue }).notify .cp (note .overdue tag [l.patron, due, s.dayCount])

theorem takeOverdueScanVisit_overdue {due : Nat} (hs : s.scan = some sc) (hw : sc.waiting = false)
    (ha : Table.above sc.cursor s.loans = some (tag, l)) (hl : l.late s.dayCount = true) (hd : l.dueDay = some due)
    (hn : s.cp.notices.length < 64) : takeOverdueScanVisit s = (s.overdue tag l due).scanVisited tag := by
  simp [takeOverdueScanVisit, hs, hw, ha, hl, Config.maxNotices, hn, hd, orZero, State.overdue]

theorem State.overdue_above (due : Nat) : Table.above tag (s.overdue tag l due).loans = Table.above tag s.loans := by
  simp [State.overdue, State.saveLoan]

end

/-- Settles O39: ADVANCE DAY hands its unit and stays; a visit is decided by the loan above the cursor, the CP notice queue,
and whether a higher tag is held. -/
theorem advanceDayAndScan : Obligations.AdvanceDayAndScan := by
  refine ⟨fun s f hp hs hf => ?day, fun s sc hs hw => exec_plain rfl (takeOverdueScanVisit_waits hs hw) rfl rfl,
    fun s sc hs hw => ⟨fun ha => exec_scanEnds (takeOverdueScanVisit_end hs hw ha) (.inl rfl) rfl,
      fun tag l ha => ⟨fun due hm hd hlt => ?late, fun hl => ?passed⟩⟩⟩
  case day =>
    have taken : exec (.advanceDay f true) s =
        .next (commit (.advanceDay f true) (State.takePosted PostedReq.advanceDay.code f true) s) := rfl
    exact exec_posted taken hp hs hf rfl (by simpa using State.free_room hs) rfl
  case late =>
    have late := Loan.late_iff.mpr ⟨hm, due, hd, hlt⟩
    refine ⟨fun hn hroom => ?_, fun hn => exec_plain rfl (takeOverdueScanVisit_full hs hw ha late hn) rfl rfl⟩
    have visited := takeOverdueScanVisit_overdue hs hw ha late hd hn
    have above := State.overdue_above (s := s) (tag := tag) (l := l) due
    refine ⟨fun more => ?_, fun last => ?_⟩
    · exact exec_roomPlain rfl (visited.trans (State.scanVisited_more (by rwa [above])))
        (by simpa [State.overdue, Config.maxUnits] using hroom) (by simp)
    · exact exec_scanEnds (visited.trans (State.scanVisited_last (by rwa [above])))
        (.inr (by simpa [State.overdue] using hroom)) (by simp)
  case passed =>
    have early : l.late s.dayCount = false := by
      rw [← Bool.not_eq_true, Loan.late_iff]
      rintro ⟨hm, d, hd, hlt⟩
      rcases hl with hl | ⟨due, hdue, hle⟩
      · exact hl hm
      · rw [hd, Option.some.injEq] at hdue
        omega
    have visited := takeOverdueScanVisit_passed hs hw ha early
    exact ⟨fun more => exec_plain rfl (visited.trans (State.scanVisited_more more)) rfl rfl,
      fun last => exec_scanEnds (visited.trans (State.scanVisited_last last)) (.inl rfl) rfl⟩

end Sys2Proof.Machine
end

section
/-! CERTIFICATES. The title store's path and the staging writer (R9 to R12). -/

namespace Sys2Proof.Machine

section
variable {s ended : State} {r x : Requester} {b : StagedBlock}

/-- The requester's place in the state, by name: the statement's view of `State.requesting`. -/
def State.asks (s : State) : Requester → Prop
  | .staging => ∃ b, s.stagingWriter = some b ∧ b.transferred = false
  | .chanA => s.chanA.activity = .storeRequest
  | .chanB => s.chanB.activity = .storeRequest

/-- On a free path a requester's request is the one it holds. -/
theorem State.requesting_iff (hg : s.grant = none) : s.requesting x = true ↔ s.asks x := by
  cases x with
  | staging => cases h : s.stagingWriter <;> simp [State.requesting, State.asks, h, hg]
  | chanA => simp [State.requesting, State.asks]
  | chanB => simp [State.requesting, State.asks]

/-- The end of a granted transfer: of a staged block, or of a channel's read. -/
def State.TransferEnds (s : State) (r : Requester) (ended : State) : Prop :=
  (∃ b, r = .staging ∧ s.stagingWriter = some b ∧ ended =
      { s with
        grant := none, store := writeStore b.storeBlock b.bytes s.store
        stagingWriter := some { b with transferred := true } }) ∨
    (∃ c, r = Chan.requester c ∧ ended =
      { s.setChan c { s.chan c with activity := .storeRead true } with grant := none })

theorem State.TransferEnds.eq (hr : s.grant = some r) (he : s.TransferEnds r ended) : s.endTransfer = ended := by
  rcases he with ⟨b, rfl, hb, rfl⟩ | ⟨c, rfl, rfl⟩
  · simp [State.endTransfer, hr, hb]
  · cases c <;> simp only [Chan.requester] at hr <;> simp only [State.endTransfer, hr] <;> rfl

theorem State.TransferEnds.free (he : s.TransferEnds r ended) : ended.grant = none := by
  rcases he with ⟨b, -, -, rfl⟩ | ⟨c, -, rfl⟩ <;> rfl

theorem State.TransferEnds.searchFrom (he : s.TransferEnds r ended) : ended.searchFrom = s.searchFrom := by
  rcases he with ⟨b, -, -, rfl⟩ | ⟨c, -, rfl⟩
  · rfl
  · cases c <;> rfl

theorem State.TransferEnds.writeQueue (he : s.TransferEnds r ended) : ended.writeQueue = s.writeQueue := by
  rcases he with ⟨b, -, -, rfl⟩ | ⟨c, -, rfl⟩
  · rfl
  · cases c <;> rfl

theorem State.TransferEnds.bays (he : s.TransferEnds r ended) : ended.bays = s.bays := by
  rcases he with ⟨b, -, -, rfl⟩ | ⟨c, -, rfl⟩
  · rfl
  · cases c <;> rfl

theorem State.TransferEnds.title (he : s.TransferEnds r ended) (n : Nat) : ended.title n = s.title n := by
  rcases he with ⟨b, -, -, rfl⟩ | ⟨c, -, rfl⟩
  · rfl
  · cases c <;> rfl

theorem State.TransferEnds.stagingWriter (he : s.TransferEnds r ended) (hne : r ≠ .staging) :
    ended.stagingWriter = s.stagingWriter := by
  rcases he with ⟨b, rfl, -, rfl⟩ | ⟨c, -, rfl⟩
  · exact absurd rfl hne
  · cases c <;> rfl

/-- Once the transfer has ended, those ask who asked before and are not the one served. -/
theorem State.TransferEnds.asks (he : s.TransferEnds r ended) (x : Requester) : ended.asks x ↔ x ≠ r ∧ s.asks x := by
  rcases he with ⟨b, rfl, hb, rfl⟩ | ⟨c, rfl, rfl⟩
  · cases x <;> simp [State.asks]
  · cases c <;> cases x <;> simp [State.asks, Chan.requester, State.setChan, State.chan]

theorem State.TransferEnds.requesting (he : s.TransferEnds r ended) (x : Requester) :
    ended.requesting x = true ↔ x ≠ r ∧ s.asks x :=
  (State.requesting_iff he.free).trans (he.asks x)

theorem State.TransferEnds.notRequesting (he : s.TransferEnds r ended) (h : ¬(x ≠ r ∧ s.asks x)) :
    ended.requesting x = false := by
  rw [← Bool.not_eq_true, he.requesting]; exact h

/-- The event of a transfer's end, by what the arbiter then does. -/
theorem State.TransferEnds.exec (hr : s.grant = some r) (he : s.TransferEnds r ended) {t : State}
    (ht : ended.arbitrate = t) (hw : t.writeQueue = ended.writeQueue) (hb : t.bays = ended.bays) :
    exec .storeTransferComplete s = .next t := by
  refine exec_plain rfl ?_ (hw.trans he.writeQueue) (hb.trans he.bays)
  simp [takeStoreTransferComplete, hr, he.eq hr, ht]

/-- The requesters of the ring are distinct. -/
theorem Requester.ring_nodup (x : Requester) : [x, x.after, x.after.after].Nodup := by
  cases x <;> decide

/-- A discarded block leaves the channels' requests as they are, and no request of the writer. -/
theorem State.discardStaged_requesting_chan (hne : x ≠ .staging) :
    s.discardStaged.requesting x = s.requesting x := by
  cases x with
  | staging => exact absurd rfl hne
  | chanA => rfl
  | chanB => rfl

theorem State.discardStaged_notRequesting (h : s.requesting x = false) : s.discardStaged.requesting x = false := by
  cases x with
  | staging => rfl
  | chanA => exact h
  | chanB => exact h

theorem State.isStaging_iff {n : Nat} :
    s.isStaging n = true ↔ ∃ w c, s.title n = some { withdrawing := w, body := .cart c } ∧ c.state = .staging := by
  unfold State.isStaging
  split
  next w c h => simp [h]
  next h =>
    simp only [Bool.false_eq_true, false_iff, not_exists, not_and]
    intro w c hc
    exact absurd hc (h w c)

@[simp] theorem State.give_writeQueue (x : Requester) (s : State) : (s.give x).writeQueue = s.writeQueue := by
  cases x <;> rfl

@[simp] theorem State.give_bays (x : Requester) (s : State) : (s.give x).bays = s.bays := by cases x <;> rfl

end

/-! ### The staging writer's completion (R9, R10) -/

section
variable {s : State} {b : StagedBlock} {w : Bool} {c : CartTitle}

/-- The completion of a block that does not end its image. -/
theorem takeStagingWriteComplete_more (hb : s.stagingWriter = some b) (ht : b.transferred = true)
    (hg : s.grant ≠ some .staging) (htitle : s.title b.title = some { withdrawing := w, body := .cart c })
    (more : c.received ≠ c.length) :
    takeStagingWriteComplete s = State.endPosted .cp { s with stagingWriter := none } := by
  have htitle' : State.title { s with stagingWriter := none } b.title = _ := htitle
  simp [takeStagingWriteComplete, hb, ht, State.endTransferOf, hg, htitle', more]

/-- The completion of an image's last block. -/
theorem takeStagingWriteComplete_last (hb : s.stagingWriter = some b) (ht : b.transferred = true)
    (hg : s.grant ≠ some .staging) (htitle : s.title b.title = some { withdrawing := w, body := .cart c })
    (hc : c.state = .staging) (last : c.received = c.length) :
    takeStagingWriteComplete s =
      State.endPosted .cp (State.finishStaging b.title w c { s with stagingWriter := none }) := by
  have htitle' : State.title { s with stagingWriter := none } b.title = _ := htitle
  simp [takeStagingWriteComplete, hb, ht, State.endTransferOf, hg, htitle', hc, last]

theorem takeStagingIdleExpiry_case {n limit : Nat} (htitle : s.title n = some { withdrawing := w, body := .cart c })
    (hi : c.idleTimer = some limit) :
    takeStagingIdleExpiry n s = State.notify .cp (noteFor .stageFailed n .idle [c.received, c.length])
      (({ s with now := max s.now limit }.freeRuns c).saveTitle n { withdrawing := w, body := .cart c.becomeAbsent }) := by
  simp [takeStagingIdleExpiry, htitle, hi, State.expire]

end

/-- Settles O40: the arbiter once the transfer has ended, from who then asks round the ring; the completion by the blocks
received and the sums; the idle timer. -/
theorem stagingEvents : Obligations.StagingEvents := by
  refine ⟨fun s ended r hr he => ?arbiter, fun s b w c hb ht hg htitle hc hroom => ⟨fun more => ?more, fun last same => ?same,
    fun last differ => ?differ⟩, fun s n w c limit htitle hi hroom => ?idle⟩
  case arbiter =>
    intro asks given becomes
    replace he : s.TransferEnds r ended := he
    have asks_eq (x : Requester) : asks x ↔ x ≠ r ∧ s.asks x := by cases x <;> rfl
    have silent {x : Requester} (h : ¬asks x) : ended.requesting x = false :=
      he.notRequesting (fun h' => h ((asks_eq x).mpr h'))
    have loud {x : Requester} (h : asks x) : ended.requesting x = true := (he.requesting x).mpr ((asks_eq x).mp h)
    have given_eq (x : Requester) (u : State) : given x u = u.give x := by cases x <;> rfl
    have ends {t : State} (ht : ended.arbitrate = t) (hw : t.writeQueue = ended.writeQueue)
        (hb : t.bays = ended.bays) : becomes t := he.exec hr ht hw hb
    refine ⟨fun none => ends (State.arbitrate_idle fun x => silent (none x)) rfl rfl,
      fun front x back ring before asked => ?_⟩
    have ring' : [ended.searchFrom, ended.searchFrom.after, ended.searchFrom.after.after] = front ++ x :: back := by
      rw [he.searchFrom, ring]
    have next := State.nextRequester_first ring' (fun y hy => silent (before y hy)) (loud asked)
    simp only [given_eq]
    refine ⟨fun hx => ends (State.arbitrate_chan he.free next hx) (by simp) (by simp), ?_⟩
    rintro b rfl hb
    have served : Requester.staging ≠ r := ((asks_eq _).mp asked).1
    have hb' : ended.stagingWriter = some b := (he.stagingWriter served.symm).trans hb
    refine ⟨fun w k htitle hk => ?_, fun left => ?_⟩
    · have staging : ended.isStaging b.title = true := State.isStaging_iff.mpr ⟨w, k, (he.title _).trans htitle, hk⟩
      exact ends (State.arbitrate_staging he.free next hb' staging) (by simp) (by simp)
    · have gone : ended.isStaging b.title = false := by
        rw [← Bool.not_eq_true, State.isStaging_iff]
        rintro ⟨w, k, htitle, hk⟩
        exact left w k ((he.title _).symm.trans htitle) hk
      obtain ⟨noneLeft, nextLeft⟩ := State.arbitrate_discard he.free next hb' gone
      refine ⟨fun quiet => ends (noneLeft ?_) rfl rfl, fun mid y rest hback quiet asks_y => ends (nextLeft y ?_) ?_ ?_⟩
      · have ring_quiet : ∀ y ∈ front ++ Requester.staging :: back, ended.discardStaged.requesting y = false := by
          intro y hy
          rcases List.mem_append.mp hy with hy | hy
          · exact State.discardStaged_notRequesting (silent (before y hy))
          · rcases List.mem_cons.mp hy with rfl | hy
            · rfl
            · exact State.discardStaged_notRequesting (silent (quiet y hy))
        refine List.find?_eq_none.mpr fun y hy => ?_
        have := ring_quiet y (ring' ▸ hy)
        simp [this]
      · have distinct := Requester.ring_nodup ended.searchFrom
        rw [ring', hback] at distinct
        have hy : y ≠ .staging := by
          rintro rfl
          simp [List.nodup_append] at distinct
        refine State.nextRequester_first (front := front ++ .staging :: mid) (back := rest) ?_ (fun z hz => ?_) ?_
        · exact ring'.trans (by simp [hback])
        · rcases List.mem_append.mp hz with hz | hz
          · exact State.discardStaged_notRequesting (silent (before z hz))
          · rcases List.mem_cons.mp hz with rfl | hz
            · rfl
            · exact State.discardStaged_notRequesting (silent (quiet z hz))
        · rw [State.discardStaged_requesting_chan hy]
          exact loud asks_y
      · rw [State.give_writeQueue]; rfl
      · rw [State.give_bays]; rfl
  case more => exact exec_plain rfl (takeStagingWriteComplete_more hb ht hg htitle more) rfl rfl
  case same =>
    have taken := takeStagingWriteComplete_last hb ht hg htitle hc last
    rw [State.finishStaging, if_pos same] at taken
    exact exec_roomPlain rfl taken (by simpa [Config.maxUnits] using hroom) (by simp)
  case differ =>
    have taken := takeStagingWriteComplete_last hb ht hg htitle hc last
    rw [State.finishStaging, if_neg differ] at taken
    exact exec_roomPlain rfl taken (by simpa [Config.maxUnits] using hroom) (by simp)
  case idle =>
    exact exec_roomPlain rfl (takeStagingIdleExpiry_case htitle hi) (by simpa [Config.maxUnits] using hroom) (by simp)

end Sys2Proof.Machine
end

section
/-! CERTIFICATES. The writing of a unit, and the places it frees (R188, R59, R191). -/

namespace Sys2Proof.Machine

section
variable {s : State} {u : WriteUnit} {rest : List WriteUnit} {pick : Nat} {h : Held}

/-- The unit at the head of the queue written, the next under its 50 ms. -/
def State.unitDone (s : State) (u : WriteUnit) (rest : List WriteUnit) : State :=
  { s with
    mem := s.mem.write u, writeQueue := rest
    writeDeadline := if rest = [] then none else some (s.now + 50) }

theorem State.finishUnit_eq (hq : s.writeQueue = u :: rest) : s.finishUnit = State.unitWritten u (s.unitDone u rest) := by
  simp [State.finishUnit, hq, State.unitDone, Config.recordAnswerTime]

theorem State.unitWritten_other (hd : ∀ d, u ≠ [.day d]) (hm : u = [.mark formatMark] → s.startup ≠ .formatting) :
    State.unitWritten u s = s := by
  unfold State.unitWritten
  split
  next d => exact absurd rfl (hd d)
  next bytes =>
    refine if_neg ?_
    rintro ⟨hs, rfl⟩
    exact hm rfl hs
  next => rfl

theorem State.unitWritten_day {d : Nat} (hl : s.loans ≠ []) :
    State.unitWritten [.day d] s = { s with dayCount := d, scan := some { cursor := 0, waiting := false } } := by
  simp [State.unitWritten, State.startScan, hl]

theorem State.unitWritten_mark (hs : s.startup = .formatting) :
    State.unitWritten [.mark formatMark] s = { s with startup := .formatted } := by
  simp [State.unitWritten, hs]

/-- A place freed with nothing waiting and no job ready brings nothing. -/
theorem State.takePlace_none (hw : s.waiting = []) (hn : s.noneReady) : s.takePlace pick = s := by
  simp [State.takePlace, hw, State.handOver_noneReady hn, lampAfter_same, takeWaiting]

/-- One waiting event, with a place free, is taken. -/
theorem takeWaiting_one (hw : s.waiting = [h]) (room : s.writeQueue.length < 128) :
    takeWaiting 1 0 s = State.takeHeld h { s with waiting := [] } := by
  simp [takeWaiting, Config.maxUnits, room, hw, pickFrom]

/-- The taking of a job picked before the one waiting event, with no job ready. -/
theorem State.takePlace_second (hw : s.waiting = [h]) (hn : s.noneReady) (hp : 1 ≤ pick)
    (room : s.writeQueue.length < 128) : s.takePlace pick = State.takeHeld h { s with waiting := [] } := by
  have later : ¬pick < s.waiting.length := by simp [hw]; omega
  rw [State.takePlace, if_neg later, State.handOver_noneReady hn, lampAfter_same rfl]
  simp only [hw, List.length_singleton]
  exact takeWaiting_one hw room

/-- One waiting event that makes no job ready is taken, whichever is picked first. -/
theorem State.takePlace_one (hw : s.waiting = [h]) (hn : s.noneReady) (room : s.writeQueue.length < 128)
    (still : (State.takeHeld h { s with waiting := [] }).copyQueue = s.copyQueue) :
    s.takePlace pick = State.takeHeld h { s with waiting := [] } := by
  rcases Nat.eq_zero_or_pos pick with rfl | hp
  · have first : 0 < s.waiting.length := by simp [hw]
    rw [State.takePlace, if_pos first, hw]
    have taken := takeWaiting_one hw room
    simp only [List.length_singleton, taken, State.handOver_noneReady (State.noneReady_congr hn still)]
    exact lampAfter_same rfl
  · exact State.takePlace_second hw hn hp room

@[simp] theorem State.releaseBin_copyQueue (r : RouteNo) (u : WriteUnit) (s : State) :
    (s.releaseBin r u).copyQueue = s.copyQueue := by
  simp [State.releaseBin_eq, State.notifyBoth]

theorem takeCloseTimerExpiry_copyQueue (r : RouteNo) (s : State) :
    (takeCloseTimerExpiry r s).copyQueue = s.copyQueue := by
  unfold takeCloseTimerExpiry
  split
  · rfl
  · simp

/-- An event that leaves the copy queue alone leaves it alone whether it is held or taken. -/
theorem commit_copyQueue {e : Instr} {g : State → State} (hg : (g s).copyQueue = s.copyQueue) :
    (commit e g s).copyQueue = s.copyQueue := by
  rcases commit_cases e g s with hc | hc
  · rw [hc]; rfl
  · rw [hc, lampAfter_eq]; exact hg

/-- The end of a unit's write, with one event waiting. -/
theorem exec_unitWriteComplete (hm : s.mode ≠ .starting) (hq : s.writeQueue = u :: rest) :
    exec (.unitWriteComplete true pick) s = .next ((State.unitWritten u (s.unitDone u rest)).takePlace pick) := by
  have writing : s.writing = true := by simp [State.writing, hm, hq]
  rw [← State.finishUnit_eq hq]
  exact congrArg Host.Outcome.next (by simp [takeUnitWriteComplete, writing])

end

/-- Settles O38: a unit that is neither the day nor the mark leaves `unitDone`; what then waits is taken by `takePlace`. -/
theorem unitWritten : Obligations.UnitWritten := by
  refine ⟨fun s u rest pick hm hq => ?_, fun s r limit full timer => ?held⟩
  case held =>
    have deadline : s.deadlineOf (.closeTimerExpiry r) = some limit := timer
    have taken : takeCloseTimerExpiry r s = (s.expire limit).releaseBin r [] := by simp [takeCloseTimerExpiry, timer]
    have held : commit (.closeTimerExpiry r) (takeCloseTimerExpiry r) s = s.hold (.closeTimerExpiry r) :=
      commit_full _ _ (by simp [taken]) (by simpa [taken, Config.maxUnits] using full)
    refine congrArg Host.Outcome.next (held.trans ?_)
    simp [State.hold, deadline, State.awaits]
  · intro done
    have writing : s.writing = true := by simp [State.writing, hm, hq]
    have written := exec_unitWriteComplete (pick := pick) hm hq
    have other (hd : ∀ d, u ≠ [.day d]) (hmark : ∀ m, u ≠ [.mark m]) : State.unitWritten u (s.unitDone u rest) = done :=
      State.unitWritten_other hd fun hu => absurd hu (hmark _)
    refine ⟨?again, fun limit hl => ?late, fun hw hn => ⟨fun hd hmark => ?plain, ?day, ?mark⟩,
      fun h hw hn hp room hd hmark => ?waits, fun r deadline hw hn room hd hmark => ?timer,
      fun b record c hw hn hp room hd hmark => ?identity⟩
    case again =>
      exact congrArg Host.Outcome.next (by simp [takeUnitWriteComplete, writing, State.rewrite, Config.recordAnswerTime])
    case late =>
      exact exec_plain rfl (by simp [takeUnitWriteAckTimeout, hl]; rfl) rfl rfl
    case plain =>
      rw [written, State.unitWritten_other (s := s.unitDone _ rest) hd hmark]
      exact congrArg Host.Outcome.next (State.takePlace_none hw hn)
    case day =>
      rintro d rfl hl
      rw [written, State.unitWritten_day (s := s.unitDone _ rest) hl]
      exact congrArg Host.Outcome.next (State.takePlace_none hw hn)
    case mark =>
      rintro rfl hs
      rw [written, State.unitWritten_mark (s := s.unitDone _ rest) hs]
      exact congrArg Host.Outcome.next (State.takePlace_none hw hn)
    case waits =>
      rw [written, other hd hmark]
      exact congrArg Host.Outcome.next (State.takePlace_second hw hn hp room)
    case timer =>
      have still : (State.takeHeld { event := .closeTimerExpiry r, awaited := .timer deadline }
          { done with waiting := [] }).copyQueue = s.copyQueue := by
        unfold State.takeHeld
        split
        · exact commit_copyQueue (takeCloseTimerExpiry_copyQueue r _)
        · rfl
      rw [written, other hd hmark]
      refine (congrArg Host.Outcome.next (State.takePlace_one (s := done) hw hn room still)).trans ?_
      by_cases same : (s.bin r).closeTimer = deadline
      · rw [if_pos same]
        subst same
        exact congrArg Host.Outcome.next (if_pos rfl)
      · rw [if_neg same]
        refine congrArg Host.Outcome.next (State.takeHeld_over fun h => same ?_)
        injection h
    case identity =>
      rw [written, other hd hmark]
      refine (congrArg Host.Outcome.next (State.takePlace_second (s := done) hw hn hp room)).trans ?_
      by_cases same : (s.bay b).command = c
      · rw [if_pos same]
        subst same
        exact congrArg Host.Outcome.next (if_pos rfl)
      · rw [if_neg same]
        refine congrArg Host.Outcome.next (State.takeHeld_over fun h => same ?_)
        injection h

end Sys2Proof.Machine
end

section
/-! CERTIFICATES. The load with its reconciliations, and records ready (R24, R40, R63, R110, R189, R190). -/

namespace Sys2Proof.Machine

/-! ### The format mark and the load (R189) -/

section
variable {s : State}

theorem takeFormatMarkRead_valid {limit : Nat} (h : s.startup = .readingMark limit) (hm : testMark s.mem.mark = .valid) :
    takeFormatMarkRead true s = { s with startup := .loading } := by
  simp [takeFormatMarkRead, h, hm]

theorem takeFormatMarkRead_notValid {limit : Nat} (h : s.startup = .readingMark limit)
    (hm : testMark s.mem.mark ≠ .valid) : takeFormatMarkRead true s = s.enterUnformatted := by
  cases ht : testMark s.mem.mark with
  | valid => exact absurd ht hm
  | absent => simp [takeFormatMarkRead, h, ht]
  | invalid => simp [takeFormatMarkRead, h, ht]

theorem takeFormatMarkRead_unanswered {limit : Nat} (h : s.startup = .readingMark limit) :
    takeFormatMarkRead false s = (s.expire limit).enterUnformatted := by
  simp [takeFormatMarkRead, h]

/-- A title loaded, its live fields put to what R24 gives them and its record otherwise as kept. -/
def CartTitle.loaded (pins : Nat) (c : CartTitle) : CartTitle :=
  { c with pins := pins, received := 0, stagingSum := .zero, idleTimer := none }

/-- A cartridge title reconciled, by its state and its pins (R24). -/
theorem CartTitle.reconcile_eq (loans : Table Loan) (n : Nat) (c : CartTitle) :
    c.reconcile loans n =
      (if c.state = .retiring ∧ pinCount loans n = 0 then none
      else if c.state = .staging ∨ (c.state = .damaged ∧ pinCount loans n = 0) then
        some { c.loaded (pinCount loans n) with state := .absent, run1 := none, run2 := none }
      else some (c.loaded (pinCount loans n))) := by
  cases h : c.state with
  | staging => simp [CartTitle.reconcile, CartTitle.loaded, CartTitle.becomeAbsent, h]
  | absent => simp [CartTitle.reconcile, CartTitle.loaded, h]
  | resident => simp [CartTitle.reconcile, CartTitle.loaded, h]
  | retiring => by_cases hp : pinCount loans n = 0 <;> simp [CartTitle.reconcile, CartTitle.loaded, h, hp]
  | damaged =>
    by_cases hp : pinCount loans n = 0 <;> simp [CartTitle.reconcile, CartTitle.loaded, CartTitle.becomeAbsent, h, hp]

theorem Title.reconcile_cart (loans : Table Loan) (n : Nat) (w : Bool) (c : CartTitle) :
    Title.reconcile loans n { withdrawing := w, body := .cart c } =
      (if c.state = .retiring ∧ pinCount loans n = 0 then none
      else if c.state = .staging ∨ (c.state = .damaged ∧ pinCount loans n = 0) then
        some
          { withdrawing := false
            body := .cart { c.loaded (pinCount loans n) with state := .absent, run1 := none, run2 := none } }
      else some { withdrawing := false, body := .cart (c.loaded (pinCount loans n)) }) := by
  simp only [Title.reconcile, CartTitle.reconcile_eq]
  split_ifs <;> rfl

/-- A loan is live in every state but RETURNING (R29). -/
theorem LoanState.live_eq (x : LoanState) : x.live = (x != .returning) := by cases x <;> rfl

theorem Patron.reconcile_eq (loans : Table Loan) (p : Patron) :
    p.reconcile loans =
      { p with
        loansOut := loans.countP (fun l => l.2.patron == p.number && l.2.state != .returning)
        returnsOpen := loans.countP (fun l => l.2.patron == p.number && l.2.state == .returning) } := by
  simp only [Patron.reconcile, LoanState.live_eq]

/-- The titles that remain after the reconciliation. -/
theorem reconcileTitles_remain (m : RecordMemory) :
    (reconcileTitles m).filterMap (fun (n, _, after) => after.map (fun t => (n, t))) =
      m.titles.filterMap (fun e => (e.2.reconcile m.loans e.1).map (fun t => (e.1, t))) := by
  simp [reconcileTitles, List.filterMap_map]

theorem reconcileUnits_eq (m : RecordMemory) :
    reconcileUnits m =
      m.titles.filterMap (fun e =>
        if (e.2.reconcile m.loans e.1).map Title.kept = some e.2.kept then none
        else some [.title e.1 ((e.2.reconcile m.loans e.1).map Title.kept)]) ++
      m.loans.filterMap (fun e => if e.2.reconcile = e.2 then none else some [.loan e.1 (some e.2.reconcile)]) ++
      m.settings.filterMap (fun e =>
        if clampLoaded e.1 e.2 = e.2 then none else some [.setting e.1 (clampLoaded e.1 e.2)]) := by
  simp [reconcileUnits, reconcileTitles, List.filterMap_map]

theorem takeRecordLoadComplete_ok (h : s.startup = .loading) : takeRecordLoadComplete true s = s.load := by
  simp [takeRecordLoadComplete, h]

theorem takeRecordLoadComplete_failed (h : s.startup = .loading) :
    takeRecordLoadComplete false s = s.enterUnformatted := by
  simp [takeRecordLoadComplete, h]

end

/-- Settles O36: the mark's test, and the load as `State.load` with each reconciliation spelled out. -/
theorem markReadAndLoad : Obligations.MarkReadAndLoad := by
  refine fun s => ⟨fun limit hs => ⟨fun hm => exec_plain rfl (takeFormatMarkRead_valid hs hm) rfl rfl,
    fun hm => exec_plain rfl (takeFormatMarkRead_notValid hs hm) rfl rfl,
    exec_plain rfl (takeFormatMarkRead_unanswered hs) rfl rfl⟩,
    fun hs => ⟨congrArg Host.Outcome.next (takeRecordLoadComplete_failed hs), fun sorted => ?_⟩⟩
  intro pins after held clamped titles
  obtain ⟨jobs, perm, ordered, queue⟩ := rebuildQueue_spec sorted
  refine ⟨jobs, perm, ordered, (congrArg Host.Outcome.next (takeRecordLoadComplete_ok hs)).trans ?_⟩
  have after_eq (n : Nat) (t : Title) : t.reconcile s.mem.loans n = after n t := by
    obtain ⟨w, c | v⟩ := t
    · exact Title.reconcile_cart _ n w c
    · rfl
  have held_eq (l : Loan) : l.reconcile = held l := rfl
  have clamped_eq (n v : Nat) : clampLoaded n v = clamped n v := rfl
  simp only [State.load, reconcileTitles_remain, reconcileUnits_eq, after_eq, held_eq, clamped_eq, queue, Patron.reconcile_eq,
    ← List.append_assoc]
  rfl

/-! ### Records ready (R190) -/

section
variable {s : State}

/-- The CP port when a scan ends (R59, R60, R63). -/
def PortUnit.scanEnded (u : PortUnit) : PortUnit :=
  if u.applying && u.posted.head? == some .advanceDay then u.endApplication else u.handHead

theorem State.endScan_eq : s.endScan = { s with scan := none, cp := s.cp.scanEnded } := by
  unfold State.endScan PortUnit.scanEnded
  by_cases h : (s.cp.applying && s.cp.posted.head? == some .advanceDay) = true
  · simp only [h, if_true]; rfl
  · simp only [h]; rfl

/-- A scan begun, or ended in the same event over no loan (log entry 15). -/
theorem State.startScan_eq :
    s.startScan =
      { s with
        scan := if s.loans = [] then none else some { cursor := 0, waiting := false }
        cp := if s.loans = [] then s.cp.scanEnded else s.cp } := by
  by_cases h : s.loans = []
  · simp [State.startScan, h, State.endScan_eq]
  · simp [State.startScan, h]

/-- A job after the jobs of some tags have sought a bay in vain: with a loan, its re-home timer runs (R100, R101). -/
def State.sought (s : State) (tags : List Nat) (j : Job) : Job :=
  if j.tag ∈ tags ∧ s.loan j.tag ≠ none then { j with rehome := some (s.now + s.rehomeLimit) } else j

theorem State.sought_sought (x : Nat) (tags : List Nat) (j : Job) :
    s.sought tags (s.sought [x] j) = s.sought (x :: tags) j := by
  by_cases hl : s.loan j.tag = none
  · simp [State.sought, hl]
  · by_cases hx : j.tag = x <;> by_cases ht : j.tag ∈ tags <;> simp_all [State.sought]

/-- With no pool bay a job seeks one in vain. -/
theorem State.seekBay_noPool (h : ∀ b, (s.bay b).inPool = false) (tag : Nat) :
    s.seekBay tag = { s with copyQueue := s.copyQueue.map (s.sought [tag]) } := by
  unfold State.seekBay
  cases hl : s.loan tag with
  | none =>
    have same : s.copyQueue.map (s.sought [tag]) = s.copyQueue := by
      refine (List.map_congr_left fun j _ => if_neg ?_).trans (List.map_id' _)
      rintro ⟨hj, hj'⟩
      rw [List.mem_singleton.mp hj] at hj'
      exact hj' hl
    rw [same]
  | some l =>
    have none : s.firstFit l.need = none := State.firstFit_none.mpr fun b hb => absurd hb (by simp [h b])
    simp only [none, State.updateJob]
    congr 1
    refine List.map_congr_left fun j _ => ?_
    by_cases hj : j.tag = tag
    · subst hj; simp [hl, State.sought]
    · simp [hj, State.sought]

/-- Every rebuilt job seeks a pool bay, and there is none. -/
theorem State.seekAll_noPool (h : ∀ b, (s.bay b).inPool = false) :
    s.seekAll =
      { s with
        copyQueue := s.copyQueue.map (fun j => if s.loan j.tag = none then j
          else { j with rehome := some (s.now + s.rehomeLimit) }) } := by
  have fold (jobs q : List Job) :
      jobs.foldl (fun t j => t.seekBay j.tag) { s with copyQueue := q } =
        { s with copyQueue := q.map (s.sought (jobs.map Job.tag)) } := by
    induction jobs generalizing q with
    | nil =>
      have none : s.sought [] = id := funext fun j => by simp [State.sought]
      simp [none]
    | cons x jobs ih =>
      rw [List.foldl_cons, State.seekBay_noPool (s := { s with copyQueue := q }) h]
      refine (ih _).trans ?_
      simp only [List.map_map]
      congr 1
      exact List.map_congr_left fun j _ => State.sought_sought ..
  refine (fold s.copyQueue s.copyQueue).trans ?_
  congr 1
  refine List.map_congr_left fun j hj => ?_
  have mem : j.tag ∈ s.copyQueue.map Job.tag := List.mem_map_of_mem hj
  by_cases hl : s.loan j.tag = none <;> simp [State.sought, hl, mem]

/-- READ IDENTITY goes out to an IDENTIFYING bay on a free line, and only then (R92, R93). -/
theorem State.sendIdentity_sent {b : BayNo}
    (h : (s.bay b).state = .identifying ∧ (s.bay b).command = none ∧ s.lineHeld b = false) :
    s.sendIdentity b =
      s.setBay b { s.bay b with command := some (.readIdentity, s.now + s.bayStallTime), ready := false } :=
  if_pos h

theorem State.sendIdentity_kept {b : BayNo}
    (h : ¬((s.bay b).state = .identifying ∧ (s.bay b).command = none ∧ s.lineHeld b = false)) : s.sendIdentity b = s :=
  if_neg h

/-- A bay seated (R89). -/
theorem State.seat_eq (b : BayNo) (s : State) :
    ∃ x : Bay, s.seat b = s.setBay b x ∧ x.state = .identifying ∧ x.presence = (s.bay b).presence := by
  let y : Bay := { s.bay b with state := .identifying, ready := true }
  by_cases h : ((s.setBay b y).bay b).state = .identifying ∧ ((s.setBay b y).bay b).command = none ∧
      (s.setBay b y).lineHeld b = false
  · refine ⟨_, (State.sendIdentity_sent h).trans (State.setBay_setBay ..), ?_, ?_⟩ <;> simp [y]
  · exact ⟨y, State.sendIdentity_kept h, rfl, rfl⟩

/-- What seating the bays of a list leaves of the state. -/
def Seated (s t : State) (l : List BayNo) : Prop :=
  t = { s with bays := t.bays } ∧ ∀ b, (t.bay b).presence = (s.bay b).presence ∧
    (t.bay b).state = if b ∈ l ∧ (s.bay b).presence then .identifying else (s.bay b).state

theorem Seated.fold (l : List BayNo) (s : State) :
    Seated s (l.foldl (fun t b => if (t.bay b).presence then t.seat b else t) s) l := by
  induction l generalizing s with
  | nil => exact ⟨rfl, by simp⟩
  | cons x l ih =>
    rw [List.foldl_cons]
    by_cases hx : (s.bay x).presence = true
    · obtain ⟨y, seated, state, presence⟩ := State.seat_eq x s
      rw [if_pos hx, seated]
      obtain ⟨eq, after⟩ := ih (s.setBay x y)
      refine ⟨eq.trans rfl, fun b => ?_⟩
      obtain ⟨keeps, gives⟩ := after b
      rw [keeps, gives]
      by_cases hb : b = x
      · subst hb
        simp [presence, state, hx]
      · rw [State.bay_setBay_other s hb]
        simp [hb]
    · rw [if_neg hx]
      obtain ⟨eq, after⟩ := ih s
      refine ⟨eq, fun b => ⟨(after b).1, (after b).2.trans ?_⟩⟩
      by_cases hb : b = x
      · subst hb
        simp [hx]
      · simp [hb]

theorem Seated.all (s : State) : Seated s s.seatAll allBays := Seated.fold allBays s

/-- What restarting the close timers of a list of bins leaves of the state. -/
def Retimed (s t : State) (l : List RouteNo) : Prop :=
  t = { s with bins := t.bins } ∧ ∀ r, (t.bin r).state = (s.bin r).state ∧ (t.bin r).list = (s.bin r).list ∧
    (t.bin r).closeTimer =
      if r ∈ l ∧ (s.bin r).state = .open ∧ (s.bin r).list ≠ [] then s.closeTimerStart r else (s.bin r).closeTimer

theorem Retimed.fold (l : List RouteNo) (s : State) : Retimed s (l.foldl (fun t r => t.retimeBin r) s) l := by
  induction l generalizing s with
  | nil => exact ⟨rfl, by simp⟩
  | cons x l ih =>
    rw [List.foldl_cons]
    by_cases hx : (s.bin x).state = .open ∧ (s.bin x).list ≠ []
    · obtain ⟨eq, after⟩ := ih (s.retimeBin x)
      have step : s.retimeBin x = s.setBin x { s.bin x with closeTimer := s.closeTimerStart x } := if_pos hx
      rw [step] at eq after ⊢
      refine ⟨eq.trans rfl, fun r => ?_⟩
      obtain ⟨state, list, timer⟩ := after r
      rw [state, list, timer]
      by_cases hr : r = x
      · subst hr
        have keep (x : Bin) : (s.setBin r x).closeTimerStart r = s.closeTimerStart r := rfl
        simp [hx, keep]
      · rw [State.bin_setBin_other s hr]
        simp only [List.mem_cons, hr, false_or, true_and]
        rfl
    · obtain ⟨eq, after⟩ := ih s
      have step : s.retimeBin x = s := if_neg hx
      rw [step]
      refine ⟨eq, fun r => ?_⟩
      obtain ⟨state, list, timer⟩ := after r
      refine ⟨state, list, timer.trans ?_⟩
      by_cases hr : r = x
      · subst hr
        simp [hx]
      · simp only [List.mem_cons, hr, false_or]

theorem Retimed.all (s : State) : Retimed s s.retimeBins (List.finRange 32) := Retimed.fold _ s

/-- A HOME job that joins an empty queue of an idle line sends its broadcast at once (R137, R151). -/
theorem State.appendJob_home (hq : s.lineJobs = []) (hc : s.lineCmd = none) :
    s.appendJob .home = State.sendLine .quiet none .gatesHome Config.broadcast []
      { s with lineJobs := [{ kind := .home, route := none, stage := .waiting }] } := by
  rw [State.appendJob_alone hq]
  exact State.startJobs_sent (j := { kind := .home, route := none, stage := .waiting }) rfl rfl hc rfl

/-- A station of the table that is built (R133). -/
theorem State.buildStations_station {a : Nat} (h : 1 ≤ a) (h30 : a ≤ 30) :
    s.buildStations.station a = if s.configured a then .online else .unused := by
  have ha : a ≠ 0 := by omega
  have lt : a - 1 < 30 := by omega
  have address : stationAddress ⟨a - 1, lt⟩ = a := by simp [stationAddress]; omega
  simp only [State.station, ha, if_false, State.buildStations, Vector.getElem?_ofFn, lt, dif_pos, address]
  rfl

/-- The STARTED notice (R185). -/
def State.startedNote (s : State) : Notice :=
  note .started s.dayCount
    [s.titles.length, s.patrons.length, s.loans.countP (fun e => e.2.state.live), s.returned]

theorem State.notifyStarted_eq :
    s.notifyStarted = { s with cp := s.cp.append s.startedNote, fp := s.fp.append s.startedNote } := rfl

/-- The CP port after records ready: STARTED placed, and a scan over no loan ended (R60, R185). -/
def State.cpBegun (s : State) : PortUnit :=
  if s.loans = [] then (s.cp.append s.startedNote).scanEnded else s.cp.append s.startedNote

/-- The part with STARTED placed, its scan begun, and every rebuilt job having sought a bay in vain. -/
def State.jobsSought (s : State) : State :=
  { s with
    cp := s.cpBegun
    fp := s.fp.append s.startedNote
    engine := s.trigger.engine
    scan := if s.loans = [] then none else some { cursor := 0, waiting := false }
    copyQueue := s.copyQueue.map (fun j => if s.loan j.tag = none then j
      else { j with rehome := some (s.now + s.rehomeLimit) }) }

theorem State.seekAll_begun (he : ∀ b, (s.bay b).state = .empty) :
    s.notifyStarted.trigger.startScan.seekAll = s.jobsSought := by
  have noPool (b : BayNo) : (s.notifyStarted.trigger.startScan.bay b).inPool = false := by
    rw [State.startScan_eq]
    have state : (s.bay b).state = .empty := he b
    simpa [Bay.inPool] using fun h => absurd (h.symm.trans state) (by decide)
  rw [State.seekAll_noPool noPool, State.startScan_eq, State.notifyStarted_eq]
  rfl

theorem State.buildStations_congr {t : State} (h : t.settings = s.settings) :
    t.buildStations = { t with stations := s.buildStations.stations } := by
  have configured (a : Nat) : t.configured a = s.configured a := by
    simp only [State.configured, State.labelStation, State.gateStation, State.setting, h]
  simp only [State.buildStations, configured]

theorem Seated.retimed {t u : State} (seated : t = { s with bays := t.bays }) (retimed : u = { t with bins := u.bins }) :
    u = { s with bays := t.bays, bins := u.bins } :=
  retimed.trans (congrArg (fun x : State => { x with bins := u.bins }) seated)

/-- What every block does at records ready, with every bay EMPTY and the mailing line idle (R190). -/
theorem State.beginRunning_eq (he : ∀ b, (s.bay b).state = .empty) (hq : s.lineJobs = []) (hc : s.lineCmd = none) :
    ∃ bays bins, s.beginRunning = State.sendLine .quiet none .gatesHome Config.broadcast []
        { s.jobsSought with
          bays := bays, bins := bins, stations := s.buildStations.stations
          lineJobs := [{ kind := .home, route := none, stage := .waiting }] } ∧
      (∀ b, (State.bay { s with bays := bays } b).state = if (s.bay b).presence then .identifying else .empty) ∧
      (∀ r, (State.bin { s with bins := bins } r).closeTimer =
        if (s.bin r).state = .open ∧ (s.bin r).list ≠ [] then s.closeTimerStart r else (s.bin r).closeTimer) := by
  have sought := State.seekAll_begun he
  obtain ⟨seats, bays⟩ := Seated.all s.jobsSought
  obtain ⟨retimes, bins⟩ := Retimed.all s.jobsSought.seatAll
  have begins : s.beginRunning = (s.jobsSought.seatAll.retimeBins.buildStations).appendJob .home := by
    simp only [State.beginRunning, sought]
  generalize s.jobsSought.seatAll.retimeBins = retimed at retimes bins begins
  generalize s.jobsSought.seatAll = seated at retimes bins seats bays
  have frame := Seated.retimed seats retimes
  refine ⟨seated.bays, retimed.bins, ?_, fun b => ?_, fun r => ?_⟩
  · have built := State.buildStations_congr (s := s) (t := retimed) (by rw [frame]; rfl)
    generalize retimed.bins = newBins at frame ⊢
    rw [begins, built, frame]
    exact State.appendJob_home hq hc
  · have empty : (s.jobsSought.bay b).state = .empty := he b
    obtain ⟨-, state⟩ := bays b
    rw [empty] at state
    refine state.trans ?_
    simp only [allBays, List.mem_finRange, true_and]
    rfl
  · obtain ⟨-, -, timer⟩ := bins r
    have same : seated.bin r = s.bin r := by rw [seats]; rfl
    have start : seated.closeTimerStart r = s.closeTimerStart r := by rw [seats]; rfl
    rw [same, start] at timer
    simp only [List.mem_finRange, true_and] at timer
    exact timer

end

section
variable {s : State}

/-- The part READY, its records at hand (R190). -/
def State.madeReady (s : State) : State :=
  { s with
    mode := .ready, startup := .settled
    writeDeadline := if s.writeQueue.isEmpty then none else some (s.now + Config.recordAnswerTime) }

theorem takeRecordsReady_reconciled (h : s.startup = .reconciled) : takeRecordsReady s = s.madeReady.beginRunning := by
  simp only [takeRecordsReady, h]; rfl

theorem takeRecordsReady_formatted (h : s.startup = .formatted) :
    takeRecordsReady s = State.endPosted .cp s.madeReady.beginRunning := by
  simp only [takeRecordsReady, h]; rfl

theorem PortUnit.append_notices {u : PortUnit} (h : u.notices = []) (n : Notice) : (u.append n).notices = [n] := by
  simp [PortUnit.append, h, Config.maxNotices]

@[simp] theorem PortUnit.append_posted (u : PortUnit) (n : Notice) : (u.append n).posted = u.posted := by
  simp [PortUnit.append_eq]

@[simp] theorem PortUnit.append_applying (u : PortUnit) (n : Notice) : (u.append n).applying = u.applying := by
  simp [PortUnit.append_eq]

@[simp] theorem PortUnit.scanEnded_notices (u : PortUnit) : u.scanEnded.notices = u.notices := by
  unfold PortUnit.scanEnded PortUnit.handHead
  split
  · rfl
  · split <;> rfl

/-- The end of a scan that no request began takes nothing off the queue. -/
theorem PortUnit.scanEnded_posted {u : PortUnit} (h : u.applying = false ∨ u.posted.head? ≠ some .advanceDay) :
    u.scanEnded.posted = u.posted := by
  have own : ¬(u.applying && u.posted.head? == some .advanceDay) = true := by
    rcases h with h | h <;> simp [h]
  rw [PortUnit.scanEnded, if_neg own, PortUnit.handHead]
  split <;> rfl

theorem PortUnit.scanEnded_empty {u : PortUnit} (ha : u.applying = false) (hq : u.posted = []) :
    u.scanEnded.applying = false := by
  simp [PortUnit.scanEnded, PortUnit.handHead, ha, hq]

theorem State.cpBegun_notices (h : s.cp.notices = []) : s.cpBegun.notices = [s.startedNote] := by
  unfold State.cpBegun
  split <;> simp [PortUnit.append_notices h]

theorem State.cpBegun_posted (h : s.cp.applying = false ∨ s.cp.posted.head? ≠ some .advanceDay) :
    s.cpBegun.posted = s.cp.posted := by
  unfold State.cpBegun
  split
  · exact (PortUnit.scanEnded_posted (by simpa using h)).trans (PortUnit.append_posted ..)
  · simp

theorem State.cpBegun_idle (ha : s.cp.applying = false) (h : s.cp.posted = [] ∨ s.loans ≠ []) :
    s.cpBegun.applying = false := by
  unfold State.cpBegun
  split
  next none => exact PortUnit.scanEnded_empty (by simpa using ha) (by simpa [none] using h)
  next => simpa using ha

theorem State.trigger_passing : s.trigger.engine.passing = true := by
  cases h : s.engine.passing <;> simp [h, Engine.startPass]

end

section
variable {s t : State}

theorem State.bay_congr (h : t.bays = s.bays) (b : BayNo) : t.bay b = s.bay b := by simp only [State.bay, h]

theorem State.bin_congr (h : t.bins = s.bins) (r : RouteNo) : t.bin r = s.bin r := by simp only [State.bin, h]

theorem State.station_congr (h : t.stations = s.stations) (a : Nat) : t.station a = s.station a := by
  simp only [State.station, h]

/-- The CP port once records are ready: after a format, with the application of the FORMAT RECORDS ended (R191). -/
def State.cpReady (s : State) : PortUnit :=
  if s.startup = .formatted then s.cpBegun.endApplication else s.cpBegun

theorem takeRecordsReady_eq (h : s.startup = .reconciled ∨ s.startup = .formatted) :
    takeRecordsReady s = { s.madeReady.beginRunning with cp := if s.startup = .formatted then
      s.madeReady.beginRunning.cp.endApplication else s.madeReady.beginRunning.cp } := by
  rcases h with h | h
  · have other : ¬s.startup = .formatted := by simp [h]
    rw [takeRecordsReady_reconciled h, if_neg other]
  · rw [takeRecordsReady_formatted h, if_pos h]
    generalize s.madeReady.beginRunning = begun
    rfl

theorem State.cpReady_notices (h : s.cp.notices = []) : s.cpReady.notices = [s.startedNote] := by
  unfold State.cpReady
  split
  · exact State.cpBegun_notices h
  · exact State.cpBegun_notices h

end

/-- Settles O37: RECORDS READY is `State.beginRunning` of the part made READY, with the application of the FORMAT RECORDS
ended after a format. -/
theorem recordsReadyBegins : Obligations.RecordsReadyBegins := by
  intro s hs he hq hc
  obtain ⟨bays, bins, begun, hbays, hbins⟩ := State.beginRunning_eq (s := s.madeReady) he hq hc
  have taken := takeRecordsReady_eq hs
  rw [begun] at taken
  refine ⟨_, exec_noUnit rfl taken rfl, ?_⟩
  rw [lampAfter_eq]
  generalize (lampAfter s _).lamp = lamp
  have note_eq : s.startedNote = note .started s.dayCount
      [s.titles.length, s.patrons.length, s.loans.countP (fun e => e.2.state != .returning), s.returned] := by
    simp only [State.startedNote, LoanState.live_eq]
  refine ⟨rfl, rfl, fun p hp => ?notices, State.trigger_passing (s := s.madeReady), fun h => if_neg h, fun h => if_pos h,
    fun b => ?bays, fun a h1 h30 => ?stations, rfl, fun r => ?bins, rfl, fun hf hhead => ?formatted,
    fun hr ha => ?reconciled, ?fp, rfl, rfl, rfl, rfl, rfl⟩
  case notices =>
    rw [← note_eq]
    cases p with
    | cp => exact State.cpReady_notices hp
    | fp => exact PortUnit.append_notices hp _
  case bays => exact (congrArg Bay.state (State.bay_congr rfl b)).trans (hbays b)
  case stations =>
    exact (State.station_congr (s := s.madeReady.buildStations) rfl a).trans (State.buildStations_station h1 h30)
  case bins => exact (congrArg Bin.closeTimer (State.bin_congr rfl r)).trans (hbins r)
  case formatted =>
    have ended : s.cpReady = s.cpBegun.endApplication := if_pos hf
    have posted : s.cpBegun.posted = s.cp.posted := State.cpBegun_posted (.inr (by simp [hhead]))
    have parts : s.cpReady.posted = s.cp.posted.tail ∧ s.cpReady.applying = !s.cp.posted.tail.isEmpty ∧
        s.cpReady.handed = !s.cp.posted.tail.isEmpty := by
      rw [ended, ← posted]
      exact ⟨rfl, rfl, rfl⟩
    exact parts
  case reconciled =>
    have same : s.cpReady = s.cpBegun := if_neg (by simp [hr])
    have parts : s.cpReady.posted = s.cp.posted ∧ (s.cp.posted = [] ∨ s.loans ≠ [] → s.cpReady.applying = false) := by
      rw [same]
      exact ⟨State.cpBegun_posted (.inl ha), State.cpBegun_idle ha⟩
    exact parts
  case fp => exact PortUnit.append_posted ..

end Sys2Proof.Machine
end

section
/-! CERTIFICATES. STAGE BEGIN: the allocation, the evictions it makes, and their place in the write queue (R5 to R7, R188). -/

namespace Sys2Proof.Machine

/-! ### Allocation (R5) -/

section
variable {need : Nat} {free : List Run} {r r1 r2 : Run}

theorem allocate_one (h : free.find? (fun x => decide (need ≤ x.count)) = some r) :
    allocate need free = some ({ first := r.first, count := need }, none) := by
  simp [allocate, h]

theorem allocate_two {front back : List Run} (short : ∀ x ∈ free, x.count < need) (split : free = front ++ r1 :: back)
    (before : ∀ x ∈ front, x.count < r1.count) (behind : ∀ x ∈ back, x.count ≤ r1.count)
    (h : (free.filter (fun x => x ≠ r1)).find? (fun x => decide (need - r1.count ≤ x.count)) = some r2) :
    allocate need free = some (r1, some { first := r2.first, count := need - r1.count }) := by
  have none : free.find? (fun x => decide (need ≤ x.count)) = none := by
    rw [List.find?_eq_none]
    intro x hx
    simpa using short x hx
  have longest : longestRun free = some r1 := split ▸ longestRun_split before behind
  have others : free.filter (fun x => x != r1) = free.filter (fun x => x ≠ r1) := by
    congr 1
    funext x
    by_cases hx : x = r1 <;> simp [hx]
  simp only [allocate, none, longest, others, h]

theorem allocate_long (h : ∃ x ∈ free, need ≤ x.count) : ∃ r1 r2, allocate need free = some (r1, r2) := by
  cases found : free.find? (fun x => decide (need ≤ x.count)) with
  | some r => exact ⟨_, _, allocate_one found⟩
  | none =>
    obtain ⟨x, hx, hn⟩ := h
    exact absurd hn (by simpa using List.find?_eq_none.mp found x hx)

end

/-! ### Evictions one after the other (R6) -/

section
variable {s : State} {n need : Nat} {m : Bool} {k : CartTitle} {evs : List (Nat × Bool × CartTitle)}

theorem State.evict_eq : s.evict n m k = s.evicted n m k := rfl

@[simp] theorem State.evicted_titles :
    (s.evicted n m k).titles = Table.set n { withdrawing := m, body := .cart k.becomeAbsent } s.titles := by
  simp [State.evicted, CartTitle.becomeAbsent, State.saveTitle, State.freeRuns]

@[simp] theorem State.evicted_units : (s.evicted n m k).writeQueue.length = s.writeQueue.length + 1 := by
  simp [State.evicted, State.saveTitle]

/-- What is evictable after an eviction was evictable before, and is another title. -/
theorem State.evictable_evicted {x : Nat} {m' : Bool} {k' : CartTitle} (h : (s.evicted n m k).evictable x m' k') :
    x ≠ n ∧ s.evictable x m' k' := by
  obtain ⟨title, resident, unpinned⟩ := h
  by_cases hx : x = n
  · subst hx
    simp only [State.title, State.evicted_titles, Table.find_set_self, Option.some.injEq, Title.mk.injEq,
      TitleBody.cart.injEq] at title
    obtain ⟨-, rfl⟩ := title
    exact absurd resident (by simp [CartTitle.becomeAbsent])
  · refine ⟨hx, ?_, resident, unpinned⟩
    simpa only [State.title, State.evicted_titles, Table.find_set_other hx] using title

/-- The titles evicted in turn are distinct titles of the table. -/
theorem State.evictsInTurn_distinct (h : s.evictsInTurn need evs) :
    (evs.map Prod.fst).Nodup ∧ ∀ e ∈ evs, s.evictable e.1 e.2.1 e.2.2 := by
  induction evs generalizing s with
  | nil => simp
  | cons e rest ih =>
    obtain ⟨n, m, k⟩ := e
    obtain ⟨-, ⟨evictable, -⟩, later⟩ := h
    obtain ⟨nodup, all⟩ := ih later
    refine ⟨?_, fun e he => ?_⟩
    · simp only [List.map_cons, List.nodup_cons, List.mem_map, not_exists, not_and]
      exact ⟨fun e he hn => (State.evictable_evicted (all e he)).1 hn, nodup⟩
    · rcases List.mem_cons.mp he with rfl | he
      · exact evictable
      · exact (State.evictable_evicted (all e he)).2

/-- There are no more evictions than titles. -/
theorem State.evictsInTurn_length (h : s.evictsInTurn need evs) : evs.length ≤ s.titles.length := by
  obtain ⟨nodup, all⟩ := State.evictsInTurn_distinct h
  have sub : evs.map Prod.fst ⊆ s.titles.map Prod.fst := by
    intro x hx
    obtain ⟨e, he, rfl⟩ := List.mem_map.mp hx
    exact List.mem_map.mpr ⟨_, Table.mem_find (all e he).1, rfl⟩
  simpa using (nodup.subperm sub).length_le

/-- The title evicted next is the model's victim (R6). -/
theorem State.evictedNext_victim (hs : Table.sorted s.titles = true) (h : s.evictedNext n m k) :
    victim s.titles = some (n, m, k) := by
  obtain ⟨⟨title, resident, unpinned⟩, least⟩ := h
  exact victim_eq hs title ⟨resident, unpinned⟩ fun x m' k' hx ht hr hp => least x m' k' hx ⟨ht, hr, hp⟩

/-- With a title that may be evicted the table has a victim. -/
theorem State.evictable_victim (h : s.evictable n m k) : victim s.titles ≠ none := by
  obtain ⟨title, resident, unpinned⟩ := h
  have mem := Table.mem_find title
  generalize s.titles = titles at mem
  induction titles with
  | nil => simp at mem
  | cons e rest ih =>
    obtain ⟨x, w, body⟩ := e
    rcases List.mem_cons.mp mem with here | later
    · cases here
      simp only [victim, resident, unpinned, and_self, if_true]
      split
      · simp
      · split <;> simp
    · cases body with
      | vol v => simpa only [victim] using ih later
      | cart c =>
        by_cases hc : c.state = .resident ∧ c.pins = 0
        · simp only [victim, hc, and_self, if_true]
          split
          · simp
          · split <;> simp
        · simpa only [victim, hc, if_false] using ih later

theorem State.evictedInTurn_sorted (hs : Table.sorted s.titles = true) :
    Table.sorted (s.evictedInTurn evs).titles = true := by
  induction evs generalizing s with
  | nil => exact hs
  | cons e rest ih => exact ih (by simpa using Table.sorted_set _ _ hs)

theorem State.evictedInTurn_units : (s.evictedInTurn evs).writeQueue.length = s.writeQueue.length + evs.length := by
  induction evs generalizing s with
  | nil => rfl
  | cons e rest ih =>
    refine ih.trans ?_
    simp only [State.evicted_units, List.length_cons]
    omega

/-- Evictions are a matter of the titles, the free map, the write queue and the ports. -/
theorem State.evictedInTurn_frame : (s.evictedInTurn evs).now = s.now ∧ (s.evictedInTurn evs).settings = s.settings ∧
    (s.evictedInTurn evs).bays = s.bays ∧ (s.evictedInTurn evs).waiting = s.waiting := by
  induction evs generalizing s with
  | nil => exact ⟨rfl, rfl, rfl, rfl⟩
  | cons e rest ih => exact ih

/-- The allocation makes the evictions in turn and goes on. -/
theorem allocateEvicting_evicts {fuel : Nat} (h : s.evictsInTurn need evs) (hs : evs = [] ∨ Table.sorted s.titles = true)
    (room : s.writeQueue.length + evs.length ≤ 128) :
    allocateEvicting (evs.length + fuel) need s = allocateEvicting fuel need (s.evictedInTurn evs) := by
  induction evs generalizing s with
  | nil => simp [State.evictedInTurn]
  | cons e rest ih =>
    obtain ⟨n, m, k⟩ := e
    obtain ⟨noRoom, next, later⟩ := h
    have sorted : Table.sorted s.titles = true := hs.resolve_left (by simp)
    simp only [List.length_cons] at room
    have place : s.writeQueue.length < Config.maxUnits := by simp only [Config.maxUnits]; omega
    have victim := State.evictedNext_victim sorted next
    rw [List.length_cons, Nat.add_right_comm]
    simp only [allocateEvicting, allocate_none noRoom, victim, place, if_true, State.evict_eq]
    refine ih later (.inr (by simpa using Table.sorted_set _ _ sorted)) ?_
    rw [State.evicted_units]
    omega

/-- The allocation of STAGE BEGIN, its evictions made. -/
theorem allocateEvicting_all (h : s.evictsInTurn need evs) (hs : evs = [] ∨ Table.sorted s.titles = true)
    (room : s.writeQueue.length + evs.length ≤ 128) :
    ∃ fuel, allocateEvicting (s.titles.length + 1) need s = allocateEvicting (fuel + 1) need (s.evictedInTurn evs) := by
  have le := State.evictsInTurn_length h
  refine ⟨s.titles.length - evs.length, ?_⟩
  rw [← allocateEvicting_evicts h hs room]
  congr 1
  omega

theorem allocateEvicting_found {fuel : Nat} {r1 : Run} {r2 : Option Run} (room : s.writeQueue.length < 128)
    (h : allocate need s.freeMap = some (r1, r2)) : allocateEvicting (fuel + 1) need s = (s, .found r1 r2) := by
  simp [allocateEvicting, h, Config.maxUnits, room]

theorem allocateEvicting_failed {fuel : Nat} (h : allocate need s.freeMap = none) (hv : victim s.titles = none) :
    allocateEvicting (fuel + 1) need s = (s, .failed) := by
  simp [allocateEvicting, h, hv]

/-- A full write queue holds the allocation before its staging or its next eviction (R188). -/
theorem allocateEvicting_held {fuel : Nat} (full : s.writeQueue.length = 128)
    (h : (∃ x ∈ s.freeMap, need ≤ x.count) ∨ (noRoom need s.freeMap ∧ ∃ v m k, s.evictedNext v m k)) :
    allocateEvicting (fuel + 1) need s = (s, .held) := by
  rcases h with long | ⟨short, v, m, k, next⟩
  · obtain ⟨r1, r2, found⟩ := allocate_long long
    simp [allocateEvicting, found, Config.maxUnits, full]
  · obtain ⟨x, hv⟩ := Option.ne_none_iff_exists'.mp (State.evictable_victim next.1)
    simp [allocateEvicting, allocate_none short, hv, Config.maxUnits, full]

end

/-! ### STAGE BEGIN: one equation per row of R7 -/

section
variable {s t : State} {n : Nat} {w : Bool} {c : CartTitle}

theorem applyStageBegin_undefined (h : s.title n = none) :
    applyStageBegin n s = s.refuse .cp .stageBegin n .unknownTitle [] := by
  simp [applyStageBegin, h]

theorem applyStageBegin_volume {v : VolTitle} (h : s.title n = some { withdrawing := w, body := .vol v }) :
    applyStageBegin n s = s.refuse .cp .stageBegin n .wrongState [] := by
  simp [applyStageBegin, h]

theorem applyStageBegin_wrong (h : s.title n = some { withdrawing := w, body := .cart c }) (hc : c.state ≠ .absent) :
    applyStageBegin n s =
      s.refuse .cp .stageBegin n (if c.state = .damaged then .pinned else .wrongState) [] := by
  cases hs : c.state with
  | absent => exact absurd hs hc
  | staging => simp [applyStageBegin, h, hs]
  | resident => simp [applyStageBegin, h, hs]
  | retiring => simp [applyStageBegin, h, hs]
  | damaged => simp [applyStageBegin, h, hs]

/-- The title staged in the runs found (R7). -/
def State.staged (n : Nat) (w : Bool) (c : CartTitle) (r1 : Run) (r2 : Option Run) (limit : Nat) (t : State) : State :=
  State.endPosted .cp
    (State.saveTitle n
      { withdrawing := w
        body := .cart
          { c with
            state := .staging, run1 := some r1, run2 := r2, received := 0, stagingSum := .zero
            idleTimer := some limit } }
      { t with
        freeMap := match r2 with
          | none => takeFree r1 t.freeMap
          | some r => takeFree r (takeFree r1 t.freeMap) })

theorem applyStageBegin_found {r1 : Run} {r2 : Option Run} (h : s.title n = some { withdrawing := w, body := .cart c })
    (hc : c.state = .absent)
    (ha : allocateEvicting (s.titles.length + 1) (extentsFor c.length) s = (t, .found r1 r2)) :
    applyStageBegin n s = State.staged n w c r1 r2 (t.now + t.stagingIdleTime) t := by
  simp only [applyStageBegin, h, hc, ha]
  cases r2 <;> rfl

theorem applyStageBegin_failed (h : s.title n = some { withdrawing := w, body := .cart c }) (hc : c.state = .absent)
    (ha : allocateEvicting (s.titles.length + 1) (extentsFor c.length) s = (t, .failed)) :
    applyStageBegin n s = t.refuse .cp .stageBegin n .storeFull [] := by
  simp only [applyStageBegin, h, hc, ha]

theorem applyStageBegin_held (h : s.title n = some { withdrawing := w, body := .cart c }) (hc : c.state = .absent)
    (ha : allocateEvicting (s.titles.length + 1) (extentsFor c.length) s = (t, .held)) :
    applyStageBegin n s = t.hold (.postedApplicationStart .cp) := by
  simp only [applyStageBegin, h, hc, ha]

end

/-- Settles O2: the allocation is reduced to what it does once its evictions are made, and there to the free map and the
write queue. -/
theorem stageBeginApplied : Obligations.StageBeginApplied := by
  intro s f n hp hs hf
  have taken : exec (.stageBegin f true) s =
      .next (commit (.stageBegin f true) (State.takePosted (PostedReq.stageBegin n).code f true) s) := rfl
  have handed := State.taking_title .cp (.stageBegin n) s n
  refine ⟨fun w c evs h hc => ?allocates, fun h => exec_postedRefused taken hp hs hf (applyStageBegin_undefined (handed.trans h)),
    fun w v h => exec_postedRefused taken hp hs hf (applyStageBegin_volume (handed.trans h)),
    fun w c h hc => exec_postedRefused taken hp hs hf (applyStageBegin_wrong (handed.trans h) hc)⟩
  intro need evicts sorted t staged
  have title := handed.trans h
  have units : t.writeQueue.length = s.writeQueue.length + evs.length := State.evictedInTurn_units
  obtain ⟨now, settings, bays, waiting⟩ :=
    State.evictedInTurn_frame (s := s.taking .cp (.stageBegin n)) (evs := evs)
  have allocates (room : s.writeQueue.length + evs.length ≤ 128) := allocateEvicting_all evicts sorted room
  have limit : t.now + t.stagingIdleTime = s.now + s.stagingIdleTime := by
    have now' : t.now = s.now := now
    have settings' : t.settings = s.settings := settings
    simp only [State.stagingIdleTime, State.setting, now', settings']
  have stages (room : s.writeQueue.length + evs.length < 128) {r1 : Run} {r2 : Option Run}
      (found : allocate need t.freeMap = some (r1, r2)) : exec (.stageBegin f true) s = staged r1 r2 := by
    obtain ⟨fuel, reduced⟩ := allocates room.le
    have applied := applyStageBegin_found title hc (reduced.trans (allocateEvicting_found (units ▸ room) found))
    refine (exec_posted taken hp hs hf applied ?_ ?_).trans ?_
    · simp only [State.staged, State.endPosted_writeQueue, State.saveTitle_writeQueue, List.length_append]
      exact units ▸ room
    · simpa [State.staged] using bays
    · rw [limit]; rfl
  refine ⟨fun room => ⟨fun r found => stages room (allocate_one found),
    fun r1 r2 front back short split before behind found => stages room (allocate_two short split before behind found)⟩,
    fun room sorted' short noVictim => ?full, fun room more => ?held⟩
  case full =>
    obtain ⟨fuel, reduced⟩ := allocates room
    have victim : victim t.titles = none := by
      refine victim_none fun e he k hk => ?_
      by_contra hn
      push Not at hn
      have tsorted : Table.sorted t.titles = true := State.evictedInTurn_sorted sorted'
      obtain ⟨v, m, body⟩ := e
      cases hk
      exact noVictim v m k ⟨Table.find_mem tsorted he, hn.1, hn.2⟩
    have applied := applyStageBegin_failed title hc
      (reduced.trans (allocateEvicting_failed (allocate_none short) victim))
    exact exec_posted taken hp hs hf applied (by simpa [State.refuse, units, Config.maxUnits] using room)
      (by simpa [State.refuse] using bays)
  case held =>
    obtain ⟨fuel, reduced⟩ := allocates room.le
    have applied := applyStageBegin_held title hc (reduced.trans (allocateEvicting_held (units.trans room) more))
    refine (exec_posted taken hp hs hf applied (units.trans room).le bays).trans ?_
    have waiting' : t.waiting = s.waiting := waiting
    rw [State.hold_start, waiting']

end Sys2Proof.Machine
end

section
/-! SUPPORT. The side of the copies: what leaves the clock, the settings, the bays and the channels alone; a bay's erase
and a channel told to stop. -/

namespace Sys2Proof.Machine

/-! ### Changes that leave the bays and the channels alone -/

/-- One state has the clock, the settings, the bays and the channels of another. -/
structure SameCopySide (s t : State) : Prop where
  now : t.now = s.now
  settings : t.settings = s.settings
  bays : t.bays = s.bays
  chanA : t.chanA = s.chanA
  chanB : t.chanB = s.chanB

namespace SameCopySide

section
variable {s t u : State}

theorem trans (h : SameCopySide s t) (h' : SameCopySide t u) : SameCopySide s u :=
  ⟨h'.now.trans h.now, h'.settings.trans h.settings, h'.bays.trans h.bays, h'.chanA.trans h.chanA, h'.chanB.trans h.chanB⟩

theorem bay (h : SameCopySide s t) (b : BayNo) : t.bay b = s.bay b := State.bay_congr h.bays b

theorem chan (h : SameCopySide s t) (c : Chan) : t.chan c = s.chan c := by
  cases c
  · exact h.chanA
  · exact h.chanB

theorem lineHeld (h : SameCopySide s t) (b : BayNo) : t.lineHeld b = s.lineHeld b := by
  simp only [State.lineHeld, h.chanA, h.chanB]

theorem setting (h : SameCopySide s t) (n : Nat) : t.setting n = s.setting n := by
  simp only [State.setting, h.settings]

theorem taking (p : Port) (q : PostedReq) (s : State) : SameCopySide s (s.taking p q) := by
  cases p <;> exact ⟨rfl, rfl, rfl, rfl, rfl⟩

theorem notify (p : Port) (n : Notice) (s : State) : SameCopySide s (s.notify p n) := by
  cases p <;> exact ⟨rfl, rfl, rfl, rfl, rfl⟩

theorem trigger (s : State) : SameCopySide s s.trigger := ⟨rfl, rfl, rfl, rfl, rfl⟩

theorem closeLoan (tag : Nat) (u : WriteUnit) (s : State) : SameCopySide s (s.closeLoan tag u) := by
  rw [State.closeLoan_eq]; exact ⟨rfl, rfl, rfl, rfl, rfl⟩

theorem leaveQueue (tag : Nat) (s : State) : SameCopySide s (s.leaveQueue tag) := by
  rw [State.leaveQueue_eq]; exact ⟨rfl, rfl, rfl, rfl, rfl⟩

theorem unpinAll (es : List PlanEntry) (s : State) : SameCopySide s (s.unpinAll es) := by
  obtain ⟨_, _, _, _, h⟩ := State.unpinAll_changes es s
  rw [h]; exact ⟨rfl, rfl, rfl, rfl, rfl⟩

end

end SameCopySide

/-! ### The copy queue and the units of an unpinning -/

section
variable {s : State} {tag : Nat} {b : BayNo} {c : Chan}

@[simp] theorem State.unpinAll_copyQueue (es : List PlanEntry) : (s.unpinAll es).copyQueue = s.copyQueue := by
  obtain ⟨_, _, _, _, h⟩ := State.unpinAll_changes es s
  rw [h]

@[simp] theorem State.leaveQueue_writeQueue : (s.leaveQueue tag).writeQueue = s.writeQueue := by
  rw [State.leaveQueue_eq]

@[simp] theorem State.leaveQueue_bays : (s.leaveQueue tag).bays = s.bays := (SameCopySide.leaveQueue tag s).bays

@[simp] theorem State.unpinAll_bays (es : List PlanEntry) : (s.unpinAll es).bays = s.bays :=
  (SameCopySide.unpinAll es s).bays

@[simp] theorem State.leaveQueue_copyQueue :
    (s.leaveQueue tag).copyQueue = s.copyQueue.filter (fun j => j.tag != tag) := by
  rw [State.leaveQueue_eq]
  by_cases h : s.copyQueue.any (fun j => j.tag == tag) = true
  · simp [h]
  · have all : ∀ j ∈ s.copyQueue, (j.tag != tag) = true := by
      simpa [List.any_eq_true] using h
    simp only [h]
    exact (List.filter_eq_self.mpr all).symm

theorem State.leaveQueue_job : (s.leaveQueue tag).job tag = none := by
  simp [State.job, List.find?_eq_none]

/-- The unpinning of one title hands at most one unit. -/
theorem State.unpin_units (n : Nat) (s : State) : (s.unpin n).writeQueue.length ≤ s.writeQueue.length + 1 := by
  unfold State.unpin
  split
  · simp only
    split
    · unfold State.settleUnpinned
      split <;> simp
    · simp
  · simp

/-- The unpinning of a title list hands at most one unit for each title. -/
theorem State.unpinAll_units (es : List PlanEntry) (s : State) :
    (s.unpinAll es).writeQueue.length ≤ s.writeQueue.length + es.length := by
  induction es generalizing s with
  | nil => exact le_rfl
  | cons e es ih =>
    have later := ih (s.unpin e.title)
    have first := State.unpin_units e.title s
    simp only [State.unpinAll, List.foldl_cons, List.length_cons] at later ⊢
    omega

/-! ### A bay's erase (R97) and a channel told to stop (R126) -/

/-- A bay ERASING, its ERASE sent (R97). -/
def State.erasedBay (s : State) (b : BayNo) : Bay :=
  { s.bay b with
    state := .erasing, tag := none, eraseStarted := true
    command := some (.erase, s.now + s.eraseTimeLimit), ready := false, ejectPulse := none }

/-- A bay ERASING, its ERASE held until its line is free (R97). -/
def State.erasingBay (s : State) (b : BayNo) : Bay :=
  { s.bay b with state := .erasing, tag := none, eraseStarted := false, command := none, ejectPulse := none }

theorem SameCopySide.erasedBay {t : State} (h : SameCopySide s t) (b : BayNo) : t.erasedBay b = s.erasedBay b := by
  simp only [State.erasedBay, h.bay, h.now, State.eraseTimeLimit, h.setting]

theorem SameCopySide.erasingBay {t : State} (h : SameCopySide s t) (b : BayNo) : t.erasingBay b = s.erasingBay b := by
  simp only [State.erasingBay, h.bay]

theorem State.startErase_sent (h : s.lineHeld b = false) : s.startErase b = s.setBay b (s.erasedBay b) := by
  have sends : ((s.setBay b (s.erasingBay b)).bay b).state = .erasing ∧
      ((s.setBay b (s.erasingBay b)).bay b).eraseStarted = false ∧ (s.setBay b (s.erasingBay b)).lineHeld b = false := by
    simp [State.erasingBay, h]
  refine (if_pos sends).trans ?_
  rw [State.setBay_setBay, State.bay_setBay_self]
  rfl

theorem State.startErase_waits (h : s.lineHeld b = true) : s.startErase b = s.setBay b (s.erasingBay b) := by
  refine if_neg (c := ((s.setBay b (s.erasingBay b)).bay b).state = .erasing ∧
    ((s.setBay b (s.erasingBay b)).bay b).eraseStarted = false ∧ (s.setBay b (s.erasingBay b)).lineHeld b = false) ?_
  simp [h]

/-- A channel that is not IDLE holds the line of its bay (R92). -/
theorem State.lineHeld_of_chan (hc : (s.chan c).state ≠ .idle) (hb : (s.chan c).bay = some b) : s.lineHeld b = true := by
  cases c with
  | a =>
    have hc' : s.chanA.state ≠ .idle := hc
    have hb' : s.chanA.bay = some b := hb
    simp [State.lineHeld, hc', hb']
  | b =>
    have hc' : s.chanB.state ≠ .idle := hc
    have hb' : s.chanB.bay = some b := hb
    simp [State.lineHeld, hc', hb']

/-- A channel told to stop for a cancel goes on to its end with a command or a store read in progress, and with a retry
erase that waits for ready (R126, R127). -/
theorem State.tellStop_cancel_goesOn (hc : (s.chan c).state ≠ .idle) (hs : (s.chan c).stopping = false)
    (h : (∃ cmd limit, (s.chan c).activity = .commandSent cmd limit) ∨ (∃ ended, (s.chan c).activity = .storeRead ended) ∨
      (∃ limit, (s.chan c).activity = .commandDue .erase limit)) :
    s.tellStop c .cancel = s.setChan c { s.chan c with stopping := true, stopCause := some .cancel } := by
  rcases h with ⟨cmd, limit, h⟩ | ⟨ended, h⟩ | ⟨limit, h⟩ <;> simp [State.tellStop, hc, hs, h]

/-- It releases at once with a store request not granted, or another command that waits for ready (R126, log entry 18). -/
theorem State.tellStop_cancel_releases (hc : (s.chan c).state ≠ .idle) (hs : (s.chan c).stopping = false)
    (h : (s.chan c).activity = .storeRequest ∨ (∃ cmd limit, cmd ≠ .erase ∧ (s.chan c).activity = .commandDue cmd limit)) :
    s.tellStop c .cancel =
      State.release c (s.setChan c { s.chan c with stopping := true, stopCause := some .cancel }) := by
  rcases h with h | ⟨cmd, limit, hcmd, h⟩
  · simp [State.tellStop, hc, hs, h]
  · simp [State.tellStop, hc, hs, h, hcmd]

/-- A channel whose job has left the queue, told to stop so: the erase that waits for its line is sent. -/
theorem State.tellStop_cancel_erases (hc : (s.chan c).state ≠ .idle) (hs : (s.chan c).stopping = false)
    (hb : (s.chan c).bay = some b) (ht : (s.chan c).tag = some tag) (hj : s.job tag = none)
    (he : (s.bay b).state = .erasing) (hn : (s.bay b).eraseStarted = false)
    (others : ∀ d, d ≠ c → (s.chan d).bay ≠ some b)
    (h : (s.chan c).activity = .storeRequest ∨ (∃ cmd limit, cmd ≠ .erase ∧ (s.chan c).activity = .commandDue cmd limit)) :
    s.tellStop c .cancel =
      (s.setBay b
        { s.bay b with
          eraseStarted := true, command := some (.erase, s.now + s.eraseTimeLimit), ready := false }).setChan c
        .cleared := by
  rw [State.tellStop_cancel_releases hc hs h]
  have gone : (s.setChan c { s.chan c with stopping := true, stopCause := some .cancel }).job tag = none := by
    simpa [State.job] using hj
  rw [State.release_gone (by simpa using hb) (by simpa using ht) gone, State.setChan_setChan,
    State.lineFreed_erase others he hn]

end

end Sys2Proof.Machine
end

section
/-! CERTIFICATES. CANCEL LOAN of a cartridge loan (R55, R126). -/

namespace Sys2Proof.Machine

section
variable {s t : State} {tag : Nat} {l : Loan} {b : BayNo} {c : Chan}

/-- The end of a cancel: the decrease handed over, and CANCELLED (R55). -/
def State.cancelTold (tag : Nat) (l : Loan) (t : State) : State :=
  (t.handDecrease l.patron).notify .cp (note .cancelled tag [l.patron, l.state.number])

/-- A cartridge loan closed, its titles unpinned and its job out of the queue. -/
def State.cancelUnpinned (tag : Nat) (l : Loan) (s : State) : State :=
  ((s.closeLoan tag []).unpinAll l.titles).leaveQueue tag

theorem State.cancelUnpinned_side : SameCopySide s (s.cancelUnpinned tag l) :=
  ((SameCopySide.closeLoan ..).trans (SameCopySide.unpinAll ..)).trans (SameCopySide.leaveQueue ..)

theorem State.cancelUnpinned_units :
    (s.cancelUnpinned tag l).writeQueue.length ≤ s.writeQueue.length + l.titles.length + 1 := by
  have := State.unpinAll_units l.titles (s.closeLoan tag [])
  simp only [State.closeLoan_writeQueue, List.length_append, List.length_singleton] at this
  simp only [State.cancelUnpinned, State.leaveQueue_writeQueue]
  omega

/-- With every other job held or without a bay, none is ready once the loan's own has left. -/
theorem State.cancelUnpinned_noneReady (h : ∀ j ∈ s.copyQueue, j.tag = tag ∨ j.holder ≠ none ∨ j.bay = none) :
    (s.cancelUnpinned tag l).noneReady := by
  intro j hj
  simp only [State.cancelUnpinned, State.leaveQueue_copyQueue, State.unpinAll_copyQueue, State.closeLoan_copyQueue,
    List.mem_filter, bne_iff_ne] at hj
  exact (h j hj.1).resolve_left hj.2

theorem State.cancelUnpinned_job : (s.cancelUnpinned tag l).job tag = none := State.leaveQueue_job

/-- The cancel of a cartridge loan where no job is left ready. -/
theorem State.cancel_cartridge (hm : l.medium = .cartridge)
    (ht : (s.closeLoan tag []).cancelCartridge tag l ((s.job tag).bind Job.holder) = t) (hn : t.noneReady) :
    s.cancel tag l = t.cancelTold tag l := by
  have idle : (t.cancelTold tag l).noneReady := State.noneReady_congr hn (by simp [State.cancelTold, State.handDecrease])
  simp only [State.cancel, hm, ht]
  exact State.handOver_noneReady idle

theorem State.cancelCartridge_written (hl : l.state = .written) (hb : l.bay = some b) (holder : Option Chan) :
    s.cancelCartridge tag l holder = s.startErase b := by
  cases holder <;> simp [State.cancelCartridge, hl, hb]

theorem State.cancelCartridge_planned (hl : l.state = .planned) (hb : l.bay = some b) (holder : Option Chan) :
    (s.closeLoan tag []).cancelCartridge tag l holder = (s.cancelUnpinned tag l).startErase b := by
  cases holder <;> simp [State.cancelCartridge, State.cancelUnpinned, hl, hb]

theorem State.cancelCartridge_bayless (hl : l.state = .planned) (hb : l.bay = none) (holder : Option Chan) :
    (s.closeLoan tag []).cancelCartridge tag l holder = s.cancelUnpinned tag l := by
  cases holder <;> simp [State.cancelCartridge, State.cancelUnpinned, hl, hb]

theorem State.cancelCartridge_copying (hl : l.state = .copying) (hb : l.bay = some b) :
    (s.closeLoan tag []).cancelCartridge tag l (some c) =
      ((s.cancelUnpinned tag l).startErase b).tellStop c .cancel := by
  simp [State.cancelCartridge, State.cancelUnpinned, hl, hb]

theorem State.cancelTold_taking (q : PostedReq) : (s.taking .cp q).cancelTold tag l = (s.cancelTold tag l).taking .cp q := by
  simp only [State.cancelTold, State.handDecrease_taking, State.notify_taking]

@[simp] theorem State.cancelTold_writeQueue : (s.cancelTold tag l).writeQueue = s.writeQueue := by
  simp [State.cancelTold]

@[simp] theorem State.cancelTold_bays : (s.cancelTold tag l).bays = s.bays := by
  simp [State.cancelTold]

end

/-- Settles O13: the loan's state decides what the cancel takes with the loan, and the channel's activity whether it stops
at once. -/
theorem cancelCartridgeLoan : Obligations.CancelCartridgeLoan := by
  intro s f tag l hp hs hf hl hm ready erased told unpinned
  have taken : exec (.cancelLoan f true) s =
      .next (commit (.cancelLoan f true) (State.takePosted (PostedReq.cancelLoan tag).code f true) s) := rfl
  have handed := (State.taking_loan .cp (.cancelLoan tag) s tag).trans hl
  have side : SameCopySide s unpinned := (SameCopySide.taking ..).trans State.cancelUnpinned_side
  have idle : unpinned.noneReady := State.cancelUnpinned_noneReady (by simpa using ready)
  have erased_eq (b : BayNo) : unpinned.erasedBay b = erased b := side.erasedBay b
  have units : unpinned.writeQueue.length ≤ s.writeQueue.length + l.titles.length + 1 := by
    have := State.cancelUnpinned_units (s := s.taking .cp (.cancelLoan tag)) (tag := tag) (l := l)
    rwa [State.taking_writeQueue] at this
  refine ⟨fun b hst hb hheld hj => ?written, fun hst hroom => ⟨fun b hb hheld => ?planned, fun hb => ?bayless⟩,
    fun b j c hst hb hroom hj hh hc hstop hcb hct => ?copying⟩
  case written =>
    have closed : SameCopySide s ((s.taking .cp (.cancelLoan tag)).closeLoan tag []) :=
      (SameCopySide.taking ..).trans (SameCopySide.closeLoan ..)
    have erases := (State.cancelCartridge_written (s := (s.taking .cp (.cancelLoan tag)).closeLoan tag []) (tag := tag) hst hb
      (((s.taking .cp (.cancelLoan tag)).job tag).bind Job.holder)).trans
        (State.startErase_sent ((closed.lineHeld b).trans hheld))
    have none : s.noneReady := fun j hj' => (ready j hj').resolve_left fun h =>
      absurd (List.find?_eq_none.mp hj j hj') (by simp [h])
    have cancelled := applyCancelLoan_cancelled handed (by tauto)
    rw [State.cancel_cartridge hm erases (State.noneReady_congr none (by simp)), closed.erasedBay] at cancelled
    refine exec_postedAppliedLamp (t := told ((s.closeLoan tag []).setBay b (erased b))) taken hp hs hf cancelled ?_ ?_
    · rw [State.closeLoan_taking, State.setBay_taking, State.cancelTold_taking]
      rfl
    · simpa [told] using State.free_room hs
  case planned =>
    have erases := (State.cancelCartridge_planned (s := s.taking .cp (.cancelLoan tag)) (tag := tag) hst hb
      (((s.taking .cp (.cancelLoan tag)).job tag).bind Job.holder)).trans
        (State.startErase_sent ((side.lineHeld b).trans hheld))
    have cancelled := applyCancelLoan_cancelled handed (by tauto)
    rw [State.cancel_cartridge hm erases (State.noneReady_congr idle (by simp; rfl))] at cancelled
    refine (exec_postedLamp taken hp hs hf cancelled ?_).trans ?_
    · simp only [State.endPosted_writeQueue, State.cancelTold_writeQueue, State.setBay_writeQueue, Config.maxUnits]
      exact units.trans hroom
    · rw [show (State.cancelUnpinned tag l (s.taking .cp (.cancelLoan tag))).erasedBay b = erased b from erased_eq b]
      rfl
  case bayless =>
    have leaves := State.cancelCartridge_bayless (s := s.taking .cp (.cancelLoan tag)) (tag := tag) hst hb
      (((s.taking .cp (.cancelLoan tag)).job tag).bind Job.holder)
    have cancelled := applyCancelLoan_cancelled handed (by tauto)
    rw [State.cancel_cartridge hm leaves idle] at cancelled
    refine exec_posted taken hp hs hf cancelled ?_ ?_
    · rw [State.endPosted_writeQueue]
      exact units.trans hroom
    · rw [State.endPosted_bays]
      exact side.bays
  case copying =>
    have holder : ((s.taking .cp (.cancelLoan tag)).job tag).bind Job.holder = some c := by
      have job : (s.taking .cp (.cancelLoan tag)).job tag = some j := by simpa [State.job] using hj
      simp [job, hh]
    have chan := side.chan c
    have held : unpinned.lineHeld b = true :=
      State.lineHeld_of_chan (c := c) (by rw [chan]; exact hc) (by rw [chan]; exact hcb)
    have erases : ((s.taking .cp (.cancelLoan tag)).closeLoan tag []).cancelCartridge tag l
        (((s.taking .cp (.cancelLoan tag)).job tag).bind Job.holder) =
        (unpinned.setBay b (s.erasingBay b)).tellStop c .cancel := by
      rw [holder, State.cancelCartridge_copying hst hb, ← side.erasingBay]
      exact congrArg (State.tellStop c .cancel) (State.startErase_waits held)
    have chan' : (unpinned.setBay b (s.erasingBay b)).chan c = s.chan c := (State.chan_setBay ..).trans chan
    have stops {t : State} (ht : (unpinned.setBay b (s.erasingBay b)).tellStop c .cancel = t)
        (hq : t.copyQueue = unpinned.copyQueue) (hw : t.writeQueue = unpinned.writeQueue) :
        exec (.cancelLoan f true) s = .next (lampAfter s (State.endPosted .cp (told t))) := by
      have cancelled := applyCancelLoan_cancelled handed (by tauto)
      rw [State.cancel_cartridge hm (erases.trans ht) (State.noneReady_congr idle hq)] at cancelled
      refine exec_postedLamp taken hp hs hf cancelled ?_
      have told_units : (told t).writeQueue = t.writeQueue := State.cancelTold_writeQueue
      rw [State.endPosted_writeQueue, told_units, hw]
      exact units.trans hroom
    refine ⟨fun h => ?_, fun h others => ?_⟩
    · refine stops ((State.tellStop_cancel_goesOn (by rwa [chan']) (by rwa [chan']) (by rwa [chan'])).trans ?_)
        (by simp) (by simp)
      rw [chan']
      rfl
    · have gone : (unpinned.setBay b (s.erasingBay b)).job tag = none := State.cancelUnpinned_job
      have others' (d : Chan) (hd : d ≠ c) : ((unpinned.setBay b (s.erasingBay b)).chan d).bay ≠ some b := by
        rw [State.chan_setBay, side.chan]
        exact others d hd
      refine stops ((State.tellStop_cancel_erases (by rwa [chan']) (by rwa [chan']) (by rwa [chan']) (by rwa [chan']) gone
        (by simp [State.erasingBay]) (by simp [State.erasingBay]) others' (by rwa [chan'])).trans ?_) (by simp) (by simp)
      rw [State.setBay_setBay, State.bay_setBay_self, ← erased_eq, State.erasedBay, side.bay]
      rfl

end Sys2Proof.Machine
end

section
/-! CERTIFICATES. The visits of a selection pass: readers passed, volume shipments and cartridge shipments planned (R67 to
R88). -/

namespace Sys2Proof.Machine

/-! ### The engine (R67, R68, R70) -/

section
variable {s : State} {g : Engine}

/-- The end of a pass: another one where triggers came or shipments were made, else IDLE (R70). -/
theorem Engine.endPass_eq :
    g.endPass =
      (let first := if g.cursor + 1 < 16384 then g.cursor + 1 else 0
       if g.again = true ∨ (g.endedFull = false ∧ 0 < g.shipments) then
         { g with
           passing := true, again := false, endedFull := false, shipments := 0, start := first, next := some first }
       else
         { passing := false, cursor := g.cursor, again := false, start := 0, next := none, shipments := 0
           endedFull := false }) := by
  by_cases h : g.again = true ∨ (g.endedFull = false ∧ 0 < g.shipments)
  · have h' : (g.again || (!g.endedFull && decide (0 < g.shipments))) = true := by simpa using h
    rw [Engine.endPass, if_pos h']
    exact (if_pos h).symm
  · have h' : ¬(g.again || (!g.endedFull && decide (0 < g.shipments))) = true := by simpa using h
    rw [Engine.endPass, if_neg h']
    exact (if_neg h).symm

end

/-! ### The walk of a want list (R71, R73) -/

section
variable {s : State} {n : Nat} {b : BayNo} {front back : List Nat}

/-- A want that cannot ship: no set on the shelf, or, for a RESIDENT title, no place in the copy queue or no pool bay that
fits (R71, R73, R74). -/
def State.Unshippable (s : State) (n : Nat) : Prop :=
  (∀ v, s.title n = some { withdrawing := false, body := .vol v } → v.onShelf = 0) ∧
  (∀ c, s.title n = some { withdrawing := false, body := .cart c } → c.state = .resident →
    24 ≤ s.copyQueue.length ∨
      ∀ b, (s.bay b).state = .blank → (s.bay b).releasePending = false →
        (s.bay b).usable < 8 * ((c.length + 1 + 7) / 8))

theorem State.cartridgeShipment_none {length : Nat} {rest : List Nat}
    (h : 24 ≤ s.copyQueue.length ∨ ∀ b, (s.bay b).state = .blank → (s.bay b).releasePending = false →
      (s.bay b).usable < footprint length) : s.cartridgeShipment n length rest = none := by
  rcases h with full | small
  · exact if_pos full
  · have none : s.firstFit (footprint length) = none := State.firstFit_none.mpr fun b hb => by
      obtain ⟨blank, stays⟩ := (Bay.inPool_iff _).mp hb
      exact small b blank stays
    simp [State.cartridgeShipment, none]

theorem State.chooseShipment_unshippable (h : s.Unshippable n) (rest : List Nat) :
    s.chooseShipment (n :: rest) = s.chooseShipment rest := by
  obtain ⟨volume, cartridge⟩ := h
  simp only [State.chooseShipment]
  split
  next v hv => simp [volume v hv]
  next c hc =>
    by_cases hr : c.state = .resident
    · simp [hr, State.cartridgeShipment_none (cartridge c hc hr)]
    · simp [hr]
  next => rfl

theorem State.chooseShipment_front (h : ∀ x ∈ front, s.Unshippable x) :
    s.chooseShipment (front ++ back) = s.chooseShipment back := by
  induction front with
  | nil => rfl
  | cons x front ih =>
    rw [List.cons_append, State.chooseShipment_unshippable (h x (List.mem_cons_self ..))]
    exact ih fun y hy => h y (List.mem_cons_of_mem _ hy)

theorem State.chooseShipment_none {wants : List Nat} (h : ∀ x ∈ wants, s.Unshippable x) :
    s.chooseShipment wants = none := by
  have := State.chooseShipment_front (back := []) h
  rwa [List.append_nil] at this

theorem State.chooseShipment_volume {v : VolTitle} (ht : s.title n = some { withdrawing := false, body := .vol v })
    (hv : 0 < v.onShelf) : s.chooseShipment (n :: back) = some (.volume n v) := by
  simp [State.chooseShipment, ht, hv]

theorem State.chooseShipment_cartridge {c : CartTitle} (ht : s.title n = some { withdrawing := false, body := .cart c })
    (hc : c.state = .resident) (hq : s.copyQueue.length < 24) (hb : s.firstFit (footprint c.length) = some b) :
    s.chooseShipment (n :: back) =
      some (.cartridge b ({ title := n, offset := 16, length := c.length } ::
        s.fillWalk back ((s.bay b).usable - footprint c.length) 1 0 (16 + footprint c.length))) := by
  have room : ¬Config.maxJobs ≤ s.copyQueue.length := Nat.not_le.mpr hq
  simp [State.chooseShipment, ht, hc, State.cartridgeShipment, room, hb, Config.indexBlocks]

end

/-! ### The fill walk (R78) -/

section
variable {s : State} {n w left count skips offset : Nat} {rest : List Nat}

theorem State.sendable_resident {c : CartTitle} (h : s.title w = some { withdrawing := false, body := .cart c })
    (hc : c.state = .resident) : s.sendable w = some c.length := by
  simp [State.sendable, h, hc]

theorem State.sendable_none (h : ∀ c, s.title w = some { withdrawing := false, body := .cart c } → c.state ≠ .resident) :
    s.sendable w = none := by
  unfold State.sendable
  split
  next c hc => exact if_neg (h c hc)
  next => rfl

theorem State.fillWalk_full (h : s.maxPlanTitles ≤ count) : s.fillWalk (w :: rest) left count skips offset = [] := by
  simp [State.fillWalk, h]

theorem State.fillWalk_passed (h : count < s.maxPlanTitles) (hw : s.sendable w = none) :
    s.fillWalk (w :: rest) left count skips offset = s.fillWalk rest left count skips offset := by
  simp [State.fillWalk, h.not_ge, hw]

theorem State.fillWalk_added {length : Nat} (h : count < s.maxPlanTitles) (hw : s.sendable w = some length)
    (fits : footprint length ≤ left) :
    s.fillWalk (w :: rest) left count skips offset =
      { title := w, offset := offset, length := length } ::
        s.fillWalk rest (left - footprint length) (count + 1) skips (offset + footprint length) := by
  simp [State.fillWalk, h.not_ge, hw, fits]

theorem State.fillWalk_skipped {length : Nat} (h : count < s.maxPlanTitles) (hw : s.sendable w = some length)
    (big : left < footprint length) :
    s.fillWalk (w :: rest) left count skips offset =
      if s.skipLimit ≤ skips + 1 then [] else s.fillWalk rest left count (skips + 1) offset := by
  simp [State.fillWalk, h.not_ge, hw, big.not_ge]

/-- The titles the walk plans are wants in their order. -/
theorem State.fillWalk_sublist (wants : List Nat) (left count skips offset : Nat) :
    ((s.fillWalk wants left count skips offset).map PlanEntry.title).Sublist wants := by
  induction wants generalizing left count skips offset with
  | nil => simp [State.fillWalk]
  | cons w rest ih =>
    rcases Nat.lt_or_ge count s.maxPlanTitles with room | full
    · cases hw : s.sendable w with
      | none => rw [State.fillWalk_passed room hw]; exact (ih ..).cons _
      | some length =>
        rcases Nat.lt_or_ge left (footprint length) with big | fits
        · rw [State.fillWalk_skipped room hw big]
          split
          · simp
          · exact (ih ..).cons _
        · rw [State.fillWalk_added room hw fits]
          exact (ih ..).cons_cons _
    · rw [State.fillWalk_full full]; simp

end

/-! ### A visit -/

section
variable {s t : State} {slot : Nat} {p : Patron}

theorem takeSelectionVisit_last (h : s.engine.passing = true) (hn : s.nextReader = none) :
    takeSelectionVisit s = { s with engine := s.engine.endPass } := by
  simp [takeSelectionVisit, h, hn]

theorem takeSelectionVisit_full (h : s.engine.passing = true) (hn : s.nextReader = some (slot, p))
    (full : 32768 ≤ s.loans.length) :
    takeSelectionVisit s = { s with engine := Engine.endPass { s.engine with endedFull := true } } := by
  simp [takeSelectionVisit, h, hn, Config.maxLoans, full]

/-- A visit to a reader after which the copy queue hands no job over. -/
theorem takeSelectionVisit_visited (h : s.engine.passing = true) (hn : s.nextReader = some (slot, p))
    (room : s.loans.length < 32768) (ht : s.visitReader slot p = t)
    (still : State.handOver { t with engine := t.engine.advance slot } = { t with engine := t.engine.advance slot }) :
    takeSelectionVisit s = { t with engine := t.engine.advance slot } := by
  simp only [takeSelectionVisit, h, hn, if_true, Config.maxLoans, room.not_ge, if_false, ht]
  exact still

theorem State.visitReader_none (h : p.eligible = false ∨ s.chooseShipment p.wants = none) : s.visitReader slot p = s := by
  unfold State.visitReader
  rcases h with h | h
  · simp [h]
  · split
    · rw [h]
    · rfl

theorem Patron.eligible_iff : p.eligible = true ↔ p.hold = false ∧ p.loansOut < p.allowance ∧ p.wants ≠ [] := by
  simp [Patron.eligible, and_assoc]

theorem State.visitReader_volume {n : Nat} {v : VolTitle} (he : p.eligible = true)
    (h : s.chooseShipment p.wants = some (.volume n v)) : s.visitReader slot p = s.planVolume slot p n v := by
  simp [State.visitReader, he, h]

theorem State.visitReader_cartridge {b : BayNo} {plan : List PlanEntry} (he : p.eligible = true)
    (h : s.chooseShipment p.wants = some (.cartridge b plan)) : s.visitReader slot p = s.planCartridge slot p b plan := by
  simp [State.visitReader, he, h]

/-- The loan of one volume title (R43, R80). -/
def State.volumeLoan (s : State) (p : Patron) (n : Nat) : Loan :=
  { patron := p.number, medium := .volume, state := .planned, titles := [{ title := n, offset := 0, length := 0 }]
    planTotal := 0, bay := none, serial := none, period := min s.periodCap s.basePeriod, planDay := s.dayCount
    shipDay := none, dueDay := none, route := none }

theorem State.newLoan_volume (n : Nat) :
    s.newLoan p.number .volume [{ title := n, offset := 0, length := 0 }] 0 none = s.volumeLoan p n := by
  simp [State.newLoan, State.volumeLoan, State.loanPeriod]

theorem Patron.planned_one (n : Nat) :
    p.planned [n] = { p with wants := p.wants.filter (fun x => x != n), loansOut := p.loansOut + 1 } := by
  simp only [Patron.planned, List.contains_cons, List.contains_nil, Bool.or_false]
  rfl

/-- A volume shipment planned (R83). -/
theorem State.planVolume_eq {n : Nat} {v : VolTitle} (ht : s.title n = some { withdrawing := false, body := .vol v }) :
    s.planVolume slot p n v =
      (let tag := s.newTag
       let l := s.volumeLoan p n
       let q := { p with wants := p.wants.filter (fun x => x != n), loansOut := p.loansOut + 1 }
       let m : Title := { withdrawing := false, body := .vol { v with onShelf := v.onShelf - 1 } }
       State.notify .cp (note .shipmentPlanned tag [p.number, LoanMedium.volume.number, n, 1])
        (State.notify .fp (note .pick tag [n, v.location, v.volumes])
          (State.hand
            [.loan tag (some l), .nextTag (tagAfter tag), .patron slot (some q.kept), .title n (some m.kept)]
            { ((s.putTitle n m).putLoan tag l).putPatron slot q with
              nextTag := tagAfter tag
              engine := { s.engine with cursor := slot, shipments := s.engine.shipments + 1 } }))) := by
  simp only [State.planVolume, State.newLoan_volume, State.changeCopies_volume ht, State.planLoan, State.volumeLoan,
    List.map_cons, List.map_nil, Patron.planned_one]
  rfl

end

/-- Settles O42: the end of a pass is `Engine.endPass`, a visit's `Engine.advance`; the walk of the wants comes to the first
that can ship. -/
theorem visitPassesOrPlansVolume : Obligations.VisitPassesOrPlansVolume := by
  intro s passing ready ended visited passed
  have ended_eq (g : Engine) : g.endPass = ended g := Engine.endPass_eq
  have visited_eq (slot : Nat) (g : Engine) : g.advance slot = visited slot g := by
    simp only [Engine.advance, ended_eq]
    rfl
  refine ⟨fun none => ?last, fun slot p reader => ⟨fun full => ?full, fun room => ⟨fun h => ?passed,
    fun front n back v hold allowed split before title shelf units => ?volume⟩⟩⟩
  case last =>
    rw [← ended_eq]
    exact exec_plain rfl (takeSelectionVisit_last passing none) rfl rfl
  case full =>
    rw [← ended_eq]
    exact exec_plain rfl (takeSelectionVisit_full passing reader full) rfl rfl
  case passed =>
    have same : s.visitReader slot p = s := by
      refine State.visitReader_none ?_
      rcases h with hold | full | wants
      · exact .inl (by simp [Patron.eligible, hold])
      · exact .inl (by simp [Patron.eligible, full.not_gt])
      · exact .inr (State.chooseShipment_none wants)
    rw [← visited_eq]
    exact exec_plain rfl (takeSelectionVisit_visited passing reader room same
      (State.handOver_noneReady (State.noneReady_congr ready rfl))) rfl rfl
  case volume =>
    have eligible : p.eligible = true := Patron.eligible_iff.mpr ⟨hold, allowed, by simp [split]⟩
    have chosen : s.chooseShipment p.wants = some (.volume n v) := by
      rw [split, State.chooseShipment_front before, State.chooseShipment_volume title shelf]
    have planned := (State.visitReader_volume (slot := slot) eligible chosen).trans (State.planVolume_eq title)
    have taken := takeSelectionVisit_visited passing reader room planned
      (State.handOver_noneReady (State.noneReady_congr ready (by simp)))
    intro tag l q m
    refine (exec_roomPlain rfl taken (by simpa [Config.maxUnits] using units) (by simp)).trans ?_
    rw [← visited_eq]
    rfl

section
variable {s : State} {slot : Nat} {p : Patron} {b : BayNo} {plan : List PlanEntry}

/-- The loan of a cartridge plan (R43, R79, R80). -/
def State.cartridgeLoan (s : State) (p : Patron) (b : BayNo) (plan : List PlanEntry) : Loan :=
  { patron := p.number, medium := .cartridge, state := .planned, titles := plan
    planTotal := 16 + (plan.map (fun e => 8 * ((e.length + 1 + 7) / 8))).sum, bay := some b, serial := none
    period := min s.periodCap (s.basePeriod + s.periodStep * (plan.length - 1)), planDay := s.dayCount
    shipDay := none, dueDay := none, route := none }

theorem State.newLoan_cartridge :
    s.newLoan p.number .cartridge plan (planTotal plan) (some b) = s.cartridgeLoan p b plan := rfl

/-- The kept forms of the titles of a plan, in a table, for the plan's unit (R88). -/
def planChanges (titles : Table Title) (plan : List PlanEntry) : WriteUnit :=
  plan.flatMap (fun e => match Table.find e.title titles with
    | some t => [.title e.title (some t.kept)]
    | none => [])

theorem State.titleChange_eq (s : State) (plan : List PlanEntry) :
    plan.flatMap (fun e => s.titleChange e.title) = planChanges s.titles plan := rfl

/-- A cartridge shipment planned, its titles pinned in a table (R82, R85, R86, R88). -/
theorem State.planCartridge_eq {titles : Table Title} {e : PlanEntry} {rest : List PlanEntry} (hplan : plan = e :: rest)
    (pinned : plan.foldl (fun t e => t.pin e.title) s = { s with titles := titles }) :
    s.planCartridge slot p b plan =
      (let tag := s.newTag
       let l := s.cartridgeLoan p b plan
       let q := p.planned (plan.map PlanEntry.title)
       State.notify .cp (note .shipmentPlanned tag [p.number, LoanMedium.cartridge.number, e.title, plan.length])
        (State.hand
          ([.loan tag (some l), .nextTag (tagAfter tag), .patron slot (some q.kept)] ++ planChanges titles plan)
          { s with
            titles := titles
            loans := Table.set tag l s.loans
            patrons := Table.set slot q s.patrons
            nextTag := tagAfter tag
            engine := { s.engine with cursor := slot, shipments := s.engine.shipments + 1 }
            bays := s.bays.set b { s.bay b with state := .reserved, tag := some tag }
            copyQueue := s.copyQueue ++
              [{ tag := tag, bay := some b, attempts := 0, holder := none, rehome := none }] })) := by
  have first : (s.cartridgeLoan p b plan).firstTitle = e.title := by rw [hplan]; rfl
  simp only [State.planCartridge, pinned, State.newLoan_cartridge, State.titleChange_eq, State.planLoan,
    State.notifyPlanned, first]
  rfl

end

/-- Settles O43: the walk of the wants comes to the title, `State.firstFit` to the bay, and the plan's pins are what
`State.pinAll_spec` says; the walk of R78 entry by entry. -/
theorem visitPlansCartridge : Obligations.VisitPlansCartridge := by
  refine ⟨?plans, fun s left count skips offset w rest => ⟨rfl, fun full => State.fillWalk_full full,
    fun room => ⟨fun h => State.fillWalk_passed room (State.sendable_none h), fun c hw hc =>
      ⟨fun fits => State.fillWalk_added room (State.sendable_resident hw hc) fits,
        fun big => State.fillWalk_skipped room (State.sendable_resident hw hc) big⟩⟩⟩⟩
  intro s slot p b front back n c passing reader room hold allowed split once before title resident queue space blank
    stays fits least busy units plan tag l q
  have eligible : p.eligible = true := Patron.eligible_iff.mpr ⟨hold, allowed, by simp [split]⟩
  have fit : s.firstFit (footprint c.length) = some b :=
    State.firstFit_some ((Bay.inPool_iff _).mpr ⟨blank, stays⟩) fits fun x hx hneed => by
      obtain ⟨blank', stays'⟩ := (Bay.inPool_iff _).mp hx
      exact least x blank' stays' hneed
  have chosen : s.chooseShipment p.wants = some (.cartridge b plan) := by
    rw [split, State.chooseShipment_front fun x hx => ⟨(before x hx).1, fun k hk hr => .inr ((before x hx).2 k hk hr)⟩,
      State.chooseShipment_cartridge title resident queue fit]
    rfl
  have distinct : (plan.map PlanEntry.title).Nodup := by
    have tail : (n :: back).Nodup := by
      rw [split] at once
      exact (List.nodup_append.mp once).2.1
    exact tail.sublist ((State.fillWalk_sublist ..).cons_cons n)
  obtain ⟨⟨titles, pinned⟩, of_plan, others⟩ := State.pinAll_spec plan s distinct
  rw [pinned] at of_plan others
  refine ⟨titles, of_plan, others, ?_⟩
  have planned := (State.visitReader_cartridge (slot := slot) eligible chosen).trans (State.planCartridge_eq rfl pinned)
  have taken := takeSelectionVisit_visited passing reader room planned (State.handOver_noChannel busy)
  refine (exec_room rfl taken (by simpa [Config.maxUnits] using units)).trans ?_
  rfl

end Sys2Proof.Machine
end

section
/-! SUPPORT. A job that seeks a bay, and a channel's release of its job (R100, R101, R126). -/

namespace Sys2Proof.Machine

section
variable {s t : State} {tag : Nat} {l : Loan} {b : BayNo} {c : Chan} {j : Job}

/-- A job that no pool bay fits starts its re-home timer (R101). -/
theorem State.seekBay_none (hl : s.loan tag = some l) (hf : s.firstFit l.need = none) :
    s.seekBay tag = s.updateJob tag (fun j => { j with rehome := some (s.now + s.rehomeLimit) }) := by
  simp [State.seekBay, hl, hf]

/-- No pool bay fits where none of another part did, and no bay has joined the pool. -/
theorem State.firstFit_none_mono {need : Nat} (h : s.firstFit need = none)
    (pool : ∀ x, (t.bay x).inPool = true → t.bay x = s.bay x) : t.firstFit need = none :=
  State.firstFit_none.mpr fun x hx => by
    have same := pool x hx
    rw [same] at hx ⊢
    exact State.firstFit_none.mp h x hx

/-- A bay that is neither ERASING nor IDENTIFYING has no command that waits for its line (R92). -/
theorem State.lineFreed_idle (he : (s.bay b).state ≠ .erasing) (hi : (s.bay b).state ≠ .identifying) :
    s.lineFreed b = s := by
  simp [State.lineFreed, State.sendErase, State.sendIdentity, he, hi]

/-- A channel releases a job that has no bay: the channel is IDLE, and the job seeks a bay (R126, R128). -/
theorem State.release_bayless (hb : (s.chan c).bay = some b) (ht : (s.chan c).tag = some tag)
    (hj : ((s.setChan c .cleared).lineFreed b).job tag = some j) (hh : j.holder = some c) (hn : j.bay = none) :
    s.release c =
      (((s.setChan c .cleared).lineFreed b).updateJob tag (fun j => { j with holder := none })).seekBay tag := by
  simp [State.release, hb, ht, hj, hh, hn]

theorem State.firstFit_congr (h : t.bays = s.bays) (need : Nat) : t.firstFit need = s.firstFit need := by
  simp only [State.firstFit, State.bay_congr h]

theorem State.lineFreed_setChan_idle (x : Channel) (he : (s.bay b).state ≠ .erasing) (hi : (s.bay b).state ≠ .identifying) :
    (s.setChan c x).lineFreed b = s.setChan c x := by
  have same : (s.setChan c x).bay b = s.bay b := State.bay_congr (by simp) b
  exact State.lineFreed_idle (by rwa [same]) (by rwa [same])

/-- A change of jobs that keeps their tags keeps the first job of a tag, so changed. -/
theorem find_updateJob {q : List Job} {f : Job → Job} (hf : ∀ k, (f k).tag = k.tag)
    (h : q.find? (fun k => k.tag == tag) = some j) :
    (q.map (fun k => if k.tag == tag then f k else k)).find? (fun k => k.tag == tag) = some (f j) := by
  induction q with
  | nil => simp at h
  | cons x q ih =>
    by_cases hx : x.tag = tag
    · simp only [List.find?_cons, hx, beq_self_eq_true, Option.some.injEq] at h
      subst h
      simp [hx, hf]
    · simp only [List.find?_cons, beq_eq_false_iff_ne.mpr hx] at h
      simpa [hx] using ih h

theorem State.job_updateJob {f : Job → Job} (hf : ∀ k, (f k).tag = k.tag) (h : s.job tag = some j) :
    (s.updateJob tag f).job tag = some (f j) := find_updateJob hf h

/-- Two changes of a loan's job, one after the other. -/
theorem State.updateJob_updateJob {f g : Job → Job} (hf : ∀ k, (f k).tag = k.tag) :
    (s.updateJob tag f).updateJob tag g = s.updateJob tag (fun j => g (f j)) := by
  simp only [State.updateJob, List.map_map]
  congr 1
  refine List.map_congr_left fun k _ => ?_
  by_cases hk : k.tag = tag <;> simp [hk, hf]

theorem State.idleChannel_updateJob (tag : Nat) (f : Job → Job) (s : State) :
    (s.updateJob tag f).idleChannel = s.idleChannel := rfl

theorem State.firstFit_updateJob (tag : Nat) (f : Job → Job) (s : State) (need : Nat) :
    (s.updateJob tag f).firstFit need = s.firstFit need := rfl

theorem State.updateJob_setChan {f : Job → Job} (x : Channel) :
    (s.updateJob tag f).setChan c x = (s.setChan c x).updateJob tag f := by cases c <;> rfl

/-- A channel releases a job that has no bay and that no pool bay fits: the job's re-home timer starts (R101, R126). -/
theorem State.release_rehomes {x : Channel} (hb : x.bay = some b) (ht : x.tag = some tag) (hj : s.job tag = some j)
    (hh : j.holder = some c) (hn : j.bay = none) (he : (s.bay b).state ≠ .erasing) (hi : (s.bay b).state ≠ .identifying)
    (hl : s.loan tag = some l) (hf : s.firstFit l.need = none) :
    State.release c (s.setChan c x) =
      (s.setChan c .cleared).updateJob tag (fun j => { j with holder := none, rehome := some (s.now + s.rehomeLimit) }) := by
  have freed : ((s.setChan c x).setChan c .cleared).lineFreed b = s.setChan c .cleared := by
    rw [State.setChan_setChan, State.lineFreed_setChan_idle _ he hi]
  have job : (((s.setChan c x).setChan c .cleared).lineFreed b).job tag = some j := by
    rw [freed]
    simpa [State.job] using hj
  rw [State.release_bayless (by simpa using hb) (by simpa using ht) job hh hn, freed]
  have loan : State.loan ((s.setChan c .cleared).updateJob tag (fun j => { j with holder := none })) tag = some l := by
    simpa [State.loan] using hl
  rw [State.seekBay_none loan ((State.firstFit_congr (by simp) _).trans hf)]
  refine (State.updateJob_updateJob (f := fun j => { j with holder := none }) (fun _ => rfl)).trans ?_
  cases c <;> rfl

/-- A change that leaves no bay, or keeps a holder, makes no job ready. -/
theorem State.noneReady_updateJob {f : Job → Job} (h : s.noneReady)
    (hf : ∀ k, (k.holder ≠ none ∨ k.bay = none) → (f k).holder ≠ none ∨ (f k).bay = none) :
    (s.updateJob tag f).noneReady := by
  intro k hk
  simp only [State.updateJob_copyQueue, List.mem_map] at hk
  obtain ⟨x, hx, rfl⟩ := hk
  by_cases ht : x.tag = tag
  · simpa [ht] using hf x (h x hx)
  · simpa [ht] using h x hx

/-- A channel told to stop for a removal: with a store read in progress it goes on to its end (R126). -/
theorem State.tellStop_removal_goesOn {ended : Bool} (hc : (s.chan c).state ≠ .idle) (hs : (s.chan c).stopping = false)
    (h : (s.chan c).activity = .storeRead ended) :
    s.tellStop c .removal = s.setChan c { s.chan c with stopping := true, stopCause := some .removal } := by
  simp [State.tellStop, hc, hs, h]

/-- At a cartridge command, or a store request not granted, it releases at once (R126, log entry 18). -/
theorem State.tellStop_removal_releases (hc : (s.chan c).state ≠ .idle) (hs : (s.chan c).stopping = false)
    (h : (∃ cmd limit, (s.chan c).activity = .commandSent cmd limit ∨ (s.chan c).activity = .commandDue cmd limit) ∨
      (s.chan c).activity = .storeRequest) :
    s.tellStop c .removal =
      State.release c (s.setChan c { s.chan c with stopping := true, stopCause := some .removal }) := by
  rcases h with ⟨cmd, limit, h | h⟩ | h <;> simp [State.tellStop, hc, hs, h]

end

end Sys2Proof.Machine
end

section
/-! CERTIFICATES. The presence switch: a cartridge seated, and a removal by the bay's state (R89, R93, R104, R105). -/

namespace Sys2Proof.Machine

section
variable {s t : State} {tag : Nat} {l : Loan} {b : BayNo} {c : Chan} {j : Job}

/-- The sampling of a switch changes no lamp code (R89, R91). -/
theorem State.samplePresence_lamp (b : BayNo) (on : Bool) (s t : State) :
    lampAfter (s.samplePresence b on) t = lampAfter s t := by
  have word : lampWord (s.samplePresence b on).bays = lampWord s.bays := lampWord_setBay rfl
  simp only [lampAfter, word]

/-- A command that samples a switch, its event handing no unit. -/
theorem exec_sampled {i e : Instr} {g : State → State} {on : Bool}
    (hi : exec i s = .next (commit e g (s.samplePresence b on))) (ht : g (s.samplePresence b on) = t)
    (hw : t.writeQueue = s.writeQueue) : exec i s = .next (lampAfter s t) := by
  subst ht
  rw [hi, commit_noUnit e hw, State.samplePresence_lamp]

/-- A command that samples a switch, with a place for its event's units. -/
theorem exec_sampledRoom {i e : Instr} {g : State → State} {on : Bool}
    (hi : exec i s = .next (commit e g (s.samplePresence b on))) (ht : g (s.samplePresence b on) = t)
    (hw : t.writeQueue.length ≤ Config.maxUnits) : exec i s = .next (lampAfter s t) := by
  subst ht
  rw [hi, commit_room e g hw, State.samplePresence_lamp]

/-! #### A cartridge seated (R93) -/

theorem takeBayPresenceOn_seated (hm : s.mode = .ready) (he : (s.bay b).state = .empty) :
    takeBayPresenceOn b s = s.seat b := by
  simp [takeBayPresenceOn, State.isReady, hm, he]

theorem takeBayPresenceOn_kept (h : s.mode ≠ .ready ∨ (s.bay b).state ≠ .empty) : takeBayPresenceOn b s = s := by
  rcases h with h | h <;> simp [takeBayPresenceOn, State.isReady, h]

theorem State.seat_sent (hc : (s.bay b).command = none) (hl : s.lineHeld b = false) :
    s.seat b =
      s.setBay b
        { s.bay b with
          state := .identifying, ready := false, command := some (.readIdentity, s.now + s.bayStallTime) } := by
  refine (State.sendIdentity_sent (by simp [hc, hl])).trans ?_
  rw [State.setBay_setBay, State.bay_setBay_self]
  rfl

theorem State.seat_waits (hl : s.lineHeld b = true) :
    s.seat b = s.setBay b { s.bay b with state := .identifying, ready := true } :=
  State.sendIdentity_kept (by simp [hl])

/-! #### A removal (R104) -/

/-- A bay emptied, what its cartridge has sent and no block has taken discarded (R93, R104). -/
def State.vacated (b : BayNo) (s : State) : State := (s.voidHeld b).setBay b .vacant

theorem State.vacated_sampled : (s.samplePresence b false).vacated b = s.vacated b := by
  have held : (s.samplePresence b false).voidHeld b = (s.voidHeld b).setBay b { s.bay b with presence := false } := rfl
  rw [State.vacated, held, State.setBay_setBay]
  rfl

theorem State.bay_sampled (on : Bool) : (s.samplePresence b on).bay b = { s.bay b with presence := on } :=
  State.bay_setBay_self ..

/-- The removal's own part, as the sampled switch leaves it. -/
theorem State.vacated_of_sampled :
    ((s.samplePresence b false).voidHeld b).setBay b
      { Bay.vacant with presence := ((s.samplePresence b false).bay b).presence } = s.vacated b := by
  rw [State.bay_sampled]
  exact State.vacated_sampled

theorem takeBayPresenceOff_plain (h : (s.bay b).state = .empty ∨ (s.bay b).state = .identifying ∨
    (s.bay b).state = .blank ∨ (s.bay b).state = .rejected ∨ (s.bay b).state = .erasing) :
    takeBayPresenceOff b (s.samplePresence b false) = s.vacated b := by
  have state : ((s.samplePresence b false).bay b).state = (s.bay b).state := by rw [State.bay_sampled]
  rw [← State.vacated_of_sampled]
  rcases h with h | h | h | h | h <;> simp only [takeBayPresenceOff, state, h]

theorem takeBayPresenceOff_written (h : (s.bay b).state = .written) (ht : (s.bay b).tag = some tag) :
    takeBayPresenceOff b (s.samplePresence b false) = (s.vacated b).leaveWritten b tag := by
  have state : ((s.samplePresence b false).bay b).state = .written := by rw [State.bay_sampled]; exact h
  have held : ((s.samplePresence b false).bay b).tag = some tag := by rw [State.bay_sampled]; exact ht
  rw [← State.vacated_of_sampled]
  simp only [takeBayPresenceOff, state, held]

theorem takeBayPresenceOff_reserved (h : (s.bay b).state = .reserved) (ht : (s.bay b).tag = some tag) :
    takeBayPresenceOff b (s.samplePresence b false) =
      ((((s.vacated b).loseBay tag).notifyPulled b tag .reserved).seekBay tag).handOver := by
  have state : ((s.samplePresence b false).bay b).state = .reserved := by rw [State.bay_sampled]; exact h
  have held : ((s.samplePresence b false).bay b).tag = some tag := by rw [State.bay_sampled]; exact ht
  rw [← State.vacated_of_sampled]
  simp only [takeBayPresenceOff, state, held]

theorem takeBayPresenceOff_copying (h : (s.bay b).state = .writing ∨ (s.bay b).state = .verifying ∨
    (s.bay b).state = .tagging) (ht : (s.bay b).tag = some tag) :
    takeBayPresenceOff b (s.samplePresence b false) =
      ((s.vacated b).pullCopying b tag (s.bay b).state).handOver := by
  have state : ((s.samplePresence b false).bay b).state = (s.bay b).state := by rw [State.bay_sampled]
  have held : ((s.samplePresence b false).bay b).tag = some tag := by rw [State.bay_sampled]; exact ht
  rw [← State.vacated_of_sampled]
  rcases h with h | h | h <;> simp only [takeBayPresenceOff, state, h, held]

theorem State.leaveWritten_lost (hl : s.loan tag = some l) (h : l.state = .written ∧ l.bay = some b) :
    s.leaveWritten b tag = s.saveLoan tag { l with bay := none } := by
  simp [State.leaveWritten, hl, h]

theorem State.leaveWritten_kept (hl : s.loan tag = some l) (h : l.state ≠ .written ∨ l.bay ≠ some b) :
    s.leaveWritten b tag = s := by
  rcases h with h | h <;> simp [State.leaveWritten, hl, h]

/-- The loan of a bay pulled, PLANNED without a bay, with BAY PULLED (R104, R105, R107). -/
def State.pulled (b : BayNo) (tag : Nat) (l : Loan) (was : BayState) (s : State) : State :=
  State.notify .fp (note .bayPulled b.val [tag, was.number])
    ((s.vacated b).saveLoan tag { l with state := .planned, bay := none })

theorem State.loseBay_pulled (hl : s.loan tag = some l) (was : BayState) :
    ((s.vacated b).loseBay tag).notifyPulled b tag was =
      (s.pulled b tag l was).updateJob tag (fun j => { j with bay := none }) := by
  have hl' : (s.vacated b).loan tag = some l := hl
  simp only [State.loseBay, hl']
  rfl

theorem State.pulled_copyQueue (was : BayState) : (s.pulled b tag l was).copyQueue = s.copyQueue := by
  simp [State.pulled, State.saveLoan, State.vacated, State.voidHeld]

@[simp] theorem State.pulled_units (was : BayState) :
    (s.pulled b tag l was).writeQueue.length = s.writeQueue.length + 1 := by
  simp [State.pulled, State.saveLoan, State.vacated, State.voidHeld]

theorem State.pulled_loan (was : BayState) :
    (s.pulled b tag l was).loan tag = some { l with state := .planned, bay := none } := by
  simp [State.pulled, State.saveLoan, State.loan]

theorem State.pulled_chan (was : BayState) (c : Chan) : (s.pulled b tag l was).chan c = s.chan c := by cases c <;> rfl

theorem State.pulled_idle (h : s.idleChannel = none) (was : BayState) : (s.pulled b tag l was).idleChannel = none := by
  have ha : (s.pulled b tag l was).chanA = s.chanA := State.pulled_chan was .a
  have hb : (s.pulled b tag l was).chanB = s.chanB := State.pulled_chan was .b
  simpa only [State.idleChannel, ha, hb] using h

/-- The re-home limit of a job whose bay is pulled, from the part before (R101). -/
theorem State.pulled_limit (was : BayState) :
    (s.pulled b tag l was).now + (s.pulled b tag l was).rehomeLimit = s.now + s.rehomeLimit := by
  have now : (s.pulled b tag l was).now = s.now := by simp [State.pulled, State.saveLoan, State.vacated, State.voidHeld]
  have settings : (s.pulled b tag l was).settings = s.settings := by
    simp [State.pulled, State.saveLoan, State.vacated, State.voidHeld]
  simp only [now, State.rehomeLimit, State.setting, settings]

theorem State.pulled_updateJob (was : BayState) (f : Job → Job) :
    (s.pulled b tag l was).updateJob tag f =
      { s.pulled b tag l was with copyQueue := s.copyQueue.map (fun j => if j.tag = tag then f j else j) } := by
  simp only [State.updateJob, State.pulled_copyQueue, beq_iff_eq]

theorem State.pulled_bay (was : BayState) : (s.pulled b tag l was).bay b = .vacant :=
  State.bay_setBay_self (s.voidHeld b) b .vacant

/-- The pool has lost the bay pulled, and gained none. -/
theorem State.pulled_pool (was : BayState) (x : BayNo) (hx : ((s.pulled b tag l was).bay x).inPool = true) :
    (s.pulled b tag l was).bay x = s.bay x := by
  by_cases h : x = b
  · subst h
    rw [State.pulled_bay] at hx
    exact absurd hx (by decide)
  · exact State.bay_setBay_other (s.voidHeld b) h .vacant

/-- A pull leaves the pool no bay that fits where none did. -/
theorem State.pulled_firstFit {need : Nat} (hf : s.firstFit need = none) (was : BayState) :
    (s.pulled b tag l was).firstFit need = none :=
  State.firstFit_none_mono hf (State.pulled_pool was)

/-- The job of a bay pulled that no pool bay fits: without a bay, its re-home timer running (R100, R101). -/
theorem State.pulled_seekBay (hf : s.firstFit l.need = none) (was : BayState) :
    State.seekBay tag ((s.pulled b tag l was).updateJob tag (fun j => { j with bay := none })) =
      (s.pulled b tag l was).updateJob tag (fun j => { j with bay := none, rehome := some (s.now + s.rehomeLimit) }) := by
  have loan := (State.loan_updateJob (s.pulled b tag l was) tag (fun j => { j with bay := none }) tag).trans
    (State.pulled_loan was)
  have noFit := (State.firstFit_updateJob tag (fun j => { j with bay := none }) (s.pulled b tag l was) l.need).trans
    (State.pulled_firstFit hf was)
  rw [State.seekBay_none loan noFit, State.updateJob_updateJob (f := fun j => { j with bay := none }) (fun _ => rfl),
    ← State.pulled_limit (s := s) (b := b) (tag := tag) (l := l) was]
  generalize s.pulled b tag l was = u
  rfl

/-- The job of a bay pulled that its channel releases and no pool bay fits (R101, R126). -/
theorem State.pulled_release {x : Channel} (hj : s.job tag = some j) (hh : j.holder = some c) (hb : x.bay = some b)
    (ht : x.tag = some tag) (hf : s.firstFit l.need = none) (was : BayState) :
    State.release c (((s.pulled b tag l was).updateJob tag (fun j => { j with bay := none })).setChan c x) =
      ((s.pulled b tag l was).setChan c .cleared).updateJob tag
        (fun j => { j with bay := none, holder := none, rehome := some (s.now + s.rehomeLimit) }) := by
  have loan := (State.loan_updateJob (s.pulled b tag l was) tag (fun j => { j with bay := none }) tag).trans
    (State.pulled_loan was)
  have noFit := (State.firstFit_updateJob tag (fun j => { j with bay := none }) (s.pulled b tag l was) l.need).trans
    (State.pulled_firstFit hf was)
  have job : (s.pulled b tag l was).job tag = some j := by simpa only [State.job, State.pulled_copyQueue] using hj
  have bay := (State.bay_updateJob (s.pulled b tag l was) tag (fun j => { j with bay := none }) b).trans
    (State.pulled_bay was)
  rw [State.release_rehomes hb ht (State.job_updateJob (f := fun j => { j with bay := none }) (fun _ => rfl) job) hh rfl
    (by rw [bay]; decide) (by rw [bay]; decide) loan noFit, State.updateJob_setChan,
    State.updateJob_updateJob (f := fun j => { j with bay := none }) (fun _ => rfl),
    ← State.pulled_limit (s := s) (b := b) (tag := tag) (l := l) was]
  generalize s.pulled b tag l was = u
  rfl

theorem State.pulled_chanJob (was : BayState) (f : Job → Job) (c : Chan) :
    ((s.pulled b tag l was).updateJob tag f).chan c = s.chan c :=
  (State.chan_updateJob ..).trans (State.pulled_chan was c)

theorem State.pulledChan_copyQueue {was : BayState} (x : Channel) :
    ((s.pulled b tag l was).setChan c x).copyQueue = s.copyQueue := by
  rw [State.setChan_copyQueue, State.pulled_copyQueue]

theorem State.pulledChan_updateJob (was : BayState) (x : Channel) (f : Job → Job) :
    ((s.pulled b tag l was).setChan c x).updateJob tag f =
      { (s.pulled b tag l was).setChan c x with
        copyQueue := s.copyQueue.map (fun j => if j.tag = tag then f j else j) } := by
  simp only [State.updateJob, State.pulledChan_copyQueue, beq_iff_eq]

/-- A removal from a bay that a copy is using: the loan without its bay, the channel told to stop (R105). -/
theorem State.pullCopying_eq {was : BayState} (hl : s.loan tag = some l) (hj : s.job tag = some j)
    (hh : j.holder = some c) :
    (s.vacated b).pullCopying b tag was =
      ((s.pulled b tag l was).updateJob tag (fun j => { j with bay := none })).tellStop c .removal := by
  have job : (s.vacated b).job tag = some j := hj
  simp only [State.pullCopying, job, Option.bind_some, hh, State.loseBay_pulled hl]

end

/-- Settles O44: a cartridge seated by the bay and its line; a removal by the bay's state, and in a copy by what the channel
has in progress. -/
theorem bayPresence : Obligations.BayPresence := by
  refine ⟨fun s b => ⟨fun hm he hc => ⟨fun free => ?sent, fun held => ?waits⟩, fun h => ?kept⟩,
    fun s b h => exec_sampled rfl (takeBayPresenceOff_plain h) rfl, fun s b h hh => ?voided,
    fun s b tag l ht hl room => ⟨fun hs hw hb => ?lost, fun hs hw => ?stays, fun hs hf idle => ?reserved,
      fun c j hs ready hj hh hc hstop hcb hct => ⟨fun ended hact => ?goesOn, fun hact hf _ => ?releases⟩⟩⟩
  case sent =>
    have seated := (takeBayPresenceOn_seated (s := s.samplePresence b true) (b := b) hm
      (by rw [State.bay_sampled]; exact he)).trans
        (State.seat_sent (by rw [State.bay_sampled]; exact hc) (by simpa [State.samplePresence] using free))
    refine (exec_sampled rfl seated rfl).trans ?_
    rw [State.bay_sampled, State.samplePresence, State.setBay_setBay]
    rfl
  case waits =>
    have seated := (takeBayPresenceOn_seated (s := s.samplePresence b true) (b := b) hm
      (by rw [State.bay_sampled]; exact he)).trans (State.seat_waits (by simpa [State.samplePresence] using held))
    refine (exec_sampled rfl seated rfl).trans ?_
    rw [State.bay_sampled, State.samplePresence, State.setBay_setBay]
  case kept =>
    have same := takeBayPresenceOn_kept (s := s.samplePresence b true) (b := b) (by rwa [State.bay_sampled])
    refine (exec_sampled rfl same rfl).trans (congrArg Host.Outcome.next (lampAfter_word (lampWord_setBay rfl)))
  case voided =>
    obtain ⟨waits, other⟩ := State.mem_voidHeld.mp hh
    refine ⟨waits, fun record => ⟨fun he => ?_, fun he => ?_⟩⟩ <;> simp [he, State.fromCartridge] at other
  case lost =>
    have taken := (takeBayPresenceOff_written hs ht).trans (State.leaveWritten_lost (s := s.vacated b) hl ⟨hw, hb⟩)
    exact exec_sampledRoom rfl taken (by simpa [State.saveLoan, State.vacated, State.voidHeld, Config.maxUnits] using room)
  case stays =>
    have taken := (takeBayPresenceOff_written hs ht).trans (State.leaveWritten_kept (s := s.vacated b) hl hw)
    exact exec_sampled rfl taken rfl
  case reserved =>
    have taken := takeBayPresenceOff_reserved hs ht
    rw [State.loseBay_pulled hl, State.pulled_seekBay hf,
      State.handOver_noChannel ((State.idleChannel_updateJob ..).trans (State.pulled_idle idle .reserved)),
      State.pulled_updateJob] at taken
    exact exec_sampledRoom rfl taken (by simpa [Config.maxUnits] using room)
  case goesOn =>
    have taken := takeBayPresenceOff_copying hs ht
    rw [State.pullCopying_eq hl hj hh, State.tellStop_removal_goesOn (by rwa [State.pulled_chanJob])
      (by rwa [State.pulled_chanJob]) (by rwa [State.pulled_chanJob]), State.pulled_chanJob, State.updateJob_setChan,
      State.handOver_noneReady (State.noneReady_updateJob (State.noneReady_congr ready (State.pulledChan_copyQueue _))
        fun _ _ => .inr rfl), State.pulledChan_updateJob] at taken
    exact exec_sampledRoom rfl taken (by simpa [Config.maxUnits] using room)
  case releases =>
    have taken := takeBayPresenceOff_copying hs ht
    rw [State.pullCopying_eq hl hj hh, State.tellStop_removal_releases (by rwa [State.pulled_chanJob])
      (by rwa [State.pulled_chanJob]) (by rwa [State.pulled_chanJob]), State.pulled_chanJob,
      State.pulled_release (x := { s.chan c with stopping := true, stopCause := some .removal }) hj hh hcb hct hf,
      State.handOver_noneReady (State.noneReady_updateJob (State.noneReady_congr ready (State.pulledChan_copyQueue _))
        fun _ _ => .inr rfl), State.pulledChan_updateJob] at taken
    exact exec_sampledRoom rfl taken (by simpa [Config.maxUnits] using room)

end Sys2Proof.Machine
end

section
/-! SUPPORT. A bay rejected, made BLANK, or its cartridge identified (R94, R95, R98, R99, R107). -/

namespace Sys2Proof.Machine

section
variable {s : State} {b : BayNo} {x : Bay} {i : Identity} {tag : Nat} {l : Loan}

/-- A bay REJECTED for a reason (R107). -/
def Bay.rejectedFor (why : RejectReason) (x : Bay) : Bay :=
  { x with state := .rejected, reject := some why, tag := none, eraseStarted := false, command := none }

theorem State.rejectBay_eq (b : BayNo) (why : RejectReason) (s : State) :
    s.rejectBay b why =
      State.notify .fp
        (noteFor .bayRejected b.val why.reason
          [orZero ((s.bay b).identity.map Identity.serial), orZero ((s.bay b).identity.map Identity.wear)])
        (s.setBay b ((s.bay b).rejectedFor why)) := rfl

/-- A bay rejected, its cartridge known: BAY REJECTED gives its serial and wear (R107). -/
theorem State.rejectBay_known (why : RejectReason) (h : (s.bay b).identity = some i) :
    s.rejectBay b why =
      State.notify .fp (noteFor .bayRejected b.val why.reason [i.serial, i.wear])
        (s.setBay b ((s.bay b).rejectedFor why)) := by
  rw [State.rejectBay_eq, h]
  rfl

/-- A bay rejected, its cartridge not known: zeros stand for serial and wear (R107). -/
theorem State.rejectBay_unknown (why : RejectReason) (h : (s.bay b).identity = none) :
    s.rejectBay b why =
      State.notify .fp (noteFor .bayRejected b.val why.reason [0, 0]) (s.setBay b ((s.bay b).rejectedFor why)) := by
  rw [State.rejectBay_eq, h]
  rfl

/-- A bay just changed, then rejected. -/
theorem State.rejectBay_setBay (why : RejectReason) (h : x.identity = some i) :
    (s.setBay b x).rejectBay b why =
      State.notify .fp (noteFor .bayRejected b.val why.reason [i.serial, i.wear]) (s.setBay b (x.rejectedFor why)) := by
  rw [State.rejectBay_known why (by simpa using h), State.bay_setBay_self, State.setBay_setBay]

theorem State.startErase_setBay (h : s.lineHeld b = false) :
    (s.setBay b x).startErase b =
      s.setBay b
        { x with
          state := .erasing, tag := none, eraseStarted := true
          command := some (.erase, s.now + s.eraseTimeLimit), ready := false, ejectPulse := none } := by
  rw [State.startErase_sent (by simpa using h), State.setBay_setBay, State.erasedBay, State.bay_setBay_self]
  rfl

/-- A bay that becomes BLANK and that no bayless job fits joins the pool with a trigger (R99). -/
theorem State.becomeBlank_pool (h : ∀ j ∈ s.copyQueue, s.bayless j = true → x.usable < s.needOf j) :
    (s.setBay b x).becomeBlank b =
      State.trigger (s.setBay b { x with state := .blank, tag := none, eraseStarted := false, command := none }) := by
  have none : (s.setBay b x).copyQueue.find? (fun j => (s.setBay b x).bayless j &&
      decide ((s.setBay b x).needOf j ≤ x.usable)) = none := by
    rw [List.find?_eq_none]
    intro j hj hfits
    rw [Bool.and_eq_true, decide_eq_true_eq] at hfits
    exact absurd hfits.2 (h j hj hfits.1).not_ge
  simp only [State.becomeBlank, State.setBay_setBay, State.bay_setBay_self, none]

/-- A bay that becomes BLANK is given to the oldest bayless job it fits (R99). -/
theorem State.becomeBlank_given {j : Job} (hl : s.loan j.tag = some l)
    (h : s.copyQueue.find? (fun k => s.bayless k && decide (s.needOf k ≤ x.usable)) = some j) :
    (s.setBay b x).becomeBlank b =
      State.updateJob j.tag (fun k => { k with bay := some b, attempts := 0, rehome := none })
        ((s.setBay b { x with state := .reserved, tag := some j.tag, eraseStarted := false, command := none }).saveLoan
          j.tag { l with bay := some b }) := by
  have found : (s.setBay b x).copyQueue.find? (fun k => (s.setBay b x).bayless k &&
      decide ((s.setBay b x).needOf k ≤ x.usable)) = some j := h
  have loan (y : Bay) : (s.setBay b y).loan j.tag = some l := hl
  simp only [State.becomeBlank, State.setBay_setBay, State.bay_setBay_self, found, State.giveBay, loan]

end

end Sys2Proof.Machine
end

section
/-! CERTIFICATES. The end of an erase, the bays' timers, and the identification of a returned cartridge (R53, R57, R91,
R95, R98, R101, R106, R116). -/

namespace Sys2Proof.Machine

/-! ### Erase (R98) -/

section
variable {s : State} {b : BayNo} {limit : Nat} {old i : Identity} {record : List Byte}

theorem takeEraseReadyRise_case (hs : (s.bay b).state = .erasing) (hc : (s.bay b).command = some (.erase, limit)) :
    takeEraseReadyRise b s =
      s.setBay b { s.bay b with command := some (.reread, s.now + s.bayStallTime), ready := false } := by
  simp only [takeEraseReadyRise, hs, hc]

theorem takeEraseTimeLimitExpiry_case (hs : (s.bay b).state = .erasing) (hc : (s.bay b).command = some (.erase, limit)) :
    takeEraseTimeLimitExpiry b s = (s.expire limit).rejectBay b .eraseFault := by
  simp only [takeEraseTimeLimitExpiry, hs, hc]

theorem takeEraseRereadStallExpiry_case (hs : (s.bay b).state = .erasing)
    (hc : (s.bay b).command = some (.reread, limit)) :
    takeEraseRereadStallExpiry b s = (s.expire limit).rejectBay b .eraseFault := by
  simp only [takeEraseRereadStallExpiry, hs, hc]

/-- The bay once its re-read has been recorded (R98). -/
def Bay.rereadAs (old i : Identity) (x : Bay) : Bay :=
  { x with
    identity := some { old with wear := i.wear, content := i.content, tagArea := i.tagArea }, ready := true
    command := none }

/-- The classification of a re-read, by content and tag area and then by wear (R98). -/
def State.rereadClass (b : BayNo) (i : Identity) (t : State) : State :=
  if i.content ≠ .blank ∨ i.tagArea ≠ 0 then t.rejectBay b .eraseFault
  else if t.wearLimit ≤ i.wear then t.rejectBay b .worn
  else t.becomeBlank b

theorem takeEraseRereadReceived_case (hs : (s.bay b).state = .erasing) (hc : (s.bay b).command = some (.reread, limit))
    (hi : (s.bay b).identity = some old) (hp : parseIdentity record = some i) :
    takeEraseRereadReceived b record s =
      State.handOver (State.rereadClass b i (s.setBay b ((s.bay b).rereadAs old i))) := by
  have known : ((s.endBayCommand b).bay b).identity = some old := by simpa [State.endBayCommand] using hi
  simp only [takeEraseRereadReceived, hs, hc, hp, State.classifyReread, known, Option.map_some]
  simp only [State.endBayCommand, State.bay_setBay_self, State.setBay_setBay]
  rfl

end

/-- Settles O47: the end of an erase by the bay's command, and a re-read by what it names. -/
theorem eraseEvents : Obligations.EraseEvents := by
  intro s b limit old hs hi rejected
  refine ⟨fun hc => ⟨exec_word rfl (takeEraseReadyRise_case hs hc) rfl (lampWord_setBay rfl), ?limit⟩,
    fun hc => ⟨?stall, fun record i hp ready => ?reread⟩⟩
  case limit =>
    exact exec_noUnit rfl ((takeEraseTimeLimitExpiry_case hs hc).trans (State.rejectBay_known (i := old) .eraseFault hi))
      (by simp)
  case stall =>
    exact exec_noUnit rfl ((takeEraseRereadStallExpiry_case hs hc).trans (State.rejectBay_known (i := old) .eraseFault hi))
      (by simp)
  case reread =>
    intro x
    have taken := takeEraseRereadReceived_case hs hc hi hp
    have known : ((s.bay b).rereadAs old i).identity = some { old with wear := i.wear, content := i.content, tagArea := i.tagArea } :=
      rfl
    refine ⟨fun other => ?_, fun blank plain worn => ?_, fun blank plain fresh noJob => ?_⟩
    · rw [State.rereadClass, if_pos other, State.rejectBay_setBay .eraseFault known,
        State.handOver_noneReady (State.noneReady_congr ready (by simp))] at taken
      exact exec_noUnit rfl taken (by simp)
    · have wear : (s.setBay b ((s.bay b).rereadAs old i)).wearLimit ≤ i.wear := worn
      rw [State.rereadClass, if_neg (by simp [blank, plain]), if_pos wear, State.rejectBay_setBay .worn known,
        State.handOver_noneReady (State.noneReady_congr ready (by simp))] at taken
      exact exec_noUnit rfl taken (by simp)
    · have wear : ¬(s.setBay b ((s.bay b).rereadAs old i)).wearLimit ≤ i.wear := Nat.not_le.mpr fresh
      rw [State.rereadClass, if_neg (by simp [blank, plain]), if_neg wear, State.becomeBlank_pool (x := (s.bay b).rereadAs old i) noJob,
        State.handOver_noneReady (State.noneReady_congr ready (by simp))] at taken
      exact exec_noUnit rfl taken (by simp)

/-! ### Timers and ready lines (R91, R101, R106, R116) -/

section
variable {s : State} {b : BayNo} {limit tag : Nat} {l : Loan} {c : Chan} {j : Job}

theorem takeLatchEjectPulseEnd_case (h : (s.bay b).ejectPulse = some limit) :
    takeLatchEjectPulseEnd b s = (s.expire limit).setBay b { s.bay b with ejectPulse := none } := by
  simp only [takeLatchEjectPulseEnd, h]

/-- A loan closed, its titles handed back (R36, R57). -/
def State.handedBack (tag : Nat) (l : Loan) (s : State) : State :=
  { s.closeLoan tag [] with
    restorations := (s.closeLoan tag []).restorations ++
      [{ patron := l.patron, titles := l.titles.map PlanEntry.title }] }

/-- A loan failed: closed, its titles handed back and unpinned, its job out of the queue (R57). -/
def State.failed (tag : Nat) (l : Loan) (s : State) : State :=
  ((s.handedBack tag l).leaveQueue tag).unpinAll l.titles

/-- A PLANNED or COPYING cartridge loan without a bay fails (R57). -/
theorem State.failLoan_bayless {why : Reason} {title : Nat} (hl : s.loan tag = some l) (hm : l.medium = .cartridge)
    (hst : l.state = .planned ∨ l.state = .copying) (hb : l.bay = none) :
    s.failLoan tag why title =
      (s.failed tag l).notifyBoth (noteFor .copyFailed tag why [l.patron, title, 4294967295]) := by
  have live : l.medium = .cartridge ∧ (l.state = .planned ∨ l.state = .copying) := ⟨hm, hst⟩
  simp only [State.failLoan, hl, live, hb]
  rfl

theorem takeRehomeTimerExpiry_case (hj : s.job tag = some j) (hr : j.rehome = some limit) (hl : s.loan tag = some l) :
    takeRehomeTimerExpiry tag s = (s.expire limit).failLoan tag .rehome l.firstTitle := by
  simp only [takeRehomeTimerExpiry, hj, Option.bind_some, hr, hl]

theorem State.failed_units : (s.failed tag l).writeQueue.length ≤ s.writeQueue.length + l.titles.length + 1 := by
  refine (State.unpinAll_units ..).trans ?_
  rw [State.leaveQueue_writeQueue]
  have closed : (s.closeLoan tag []).writeQueue.length = s.writeQueue.length + 1 := by simp
  change (s.closeLoan tag []).writeQueue.length + l.titles.length ≤ _
  omega

theorem State.failed_side : SameCopySide s (s.failed tag l) :=
  have back : SameCopySide s (s.handedBack tag l) :=
    (SameCopySide.closeLoan tag [] s).trans ⟨rfl, rfl, rfl, rfl, rfl⟩
  (back.trans (SameCopySide.leaveQueue ..)).trans (SameCopySide.unpinAll ..)

theorem takeCartridgeReadyRise_kept (hc : (s.bay b).command = none) (h : ∀ c, (s.chan c).bay ≠ some b) :
    takeCartridgeReadyRise b s = s.setBay b { s.bay b with ready := true } := by
  have other (c : Chan) : ((s.chan c).bay == some b) = false := by simpa using h c
  have idle : s.lineBusy b = false := by
    simp only [State.lineBusy, hc, other, Option.isSome_none, Bool.false_or]
    split <;> split <;> rfl
  have none : s.waitingChannel b = none := by
    simp only [State.waitingChannel, h, if_false]
    split <;> split <;> rfl
  simp [takeCartridgeReadyRise, idle, none]

theorem takeCartridgeReadyRise_sends {cmd : CartCommand} (hc : (s.bay b).command = none) (hb : (s.chan c).bay = some b)
    (ha : (s.chan c).activity = .commandDue cmd limit) (others : ∀ d, d ≠ c → (s.chan d).bay ≠ some b) :
    takeCartridgeReadyRise b s =
      (s.setBay b { s.bay b with ready := false }).setChan c
        { s.chan c with activity := .commandSent cmd limit } := by
  have idle : s.lineBusy b = false := by
    cases c with
    | a =>
      have other : ((s.chan .b).bay == some b) = false := by simpa using others .b (by decide)
      simp only [State.lineBusy, hc, ha, other, Option.isSome_none, Bool.false_or]
      split <;> rfl
    | b =>
      have other : ((s.chan .a).bay == some b) = false := by simpa using others .a (by decide)
      simp only [State.lineBusy, hc, ha, other, Option.isSome_none, Bool.false_or]
      split <;> rfl
  have waits : s.waitingChannel b = some (c, cmd, limit) := by
    cases c with
    | a => simp [State.waitingChannel, ha, hb]
    | b =>
      have other := others .a (by decide)
      simp only [State.waitingChannel, ha, hb, if_true, other, if_false]
      split <;> rfl
  simp [takeCartridgeReadyRise, idle, waits]

end

/-- Settles O48: each timer's own row; a rise of ready by the channel that waits for it. -/
theorem bayTimers : Obligations.BayTimers := by
  refine ⟨fun s b limit h => exec_word rfl (takeLatchEjectPulseEnd_case h) rfl (lampWord_setBay rfl),
    fun s w h => exec_plain rfl (by simp only [takeLampChainSendEnd, h]) rfl rfl,
    fun s tag limit j l hj hr hl hm hst hb room => ?rehome,
    fun s b hc => ⟨fun none => exec_word rfl (takeCartridgeReadyRise_kept hc none) rfl (lampWord_setBay rfl),
      fun c cmd limit hb ha others => ?ready⟩⟩
  case rehome =>
    intro n t u
    have taken := (takeRehomeTimerExpiry_case hj hr hl).trans
      (State.failLoan_bayless (s := s.expire limit) hl hm (.inl hst) hb)
    have units := State.failed_units (s := s.expire limit) (tag := tag) (l := l)
    have side := State.failed_side (s := s.expire limit) (tag := tag) (l := l)
    exact exec_roomPlain rfl taken
      (by simp only [State.notify_writeQueue, Config.maxUnits]; exact units.trans room)
      (by simp only [State.notify_bays]; exact side.bays)
  case ready =>
    refine exec_word rfl (takeCartridgeReadyRise_sends hc hb ha others) (by simp) ?_
    rw [State.setChan_bays]
    exact lampWord_setBay rfl

end Sys2Proof.Machine
end

section
/-! SUPPORT. A job that is given a bay and taken by a channel at once (R45, R100, R109, R115). -/

namespace Sys2Proof.Machine

section
variable {s t : State} {b : BayNo} {c : Chan} {tag : Nat} {l : Loan} {e : PlanEntry} {k : CartTitle} {j : Job} {x : Channel}

theorem State.cart_congr (h : t.titles = s.titles) (n : Nat) : t.cart n = s.cart n := by
  simp only [State.cart, State.title, h]

theorem State.loan_congr (h : t.loans = s.loans) (n : Nat) : t.loan n = s.loan n := by
  simp only [State.loan, h]

/-- A change of a job, over a state with the copy queue of another. -/
theorem State.updateJob_base (h : t.copyQueue = s.copyQueue) (f : Job → Job) :
    t.updateJob tag f = { t with copyQueue := s.copyQueue.map (fun k => if k.tag = tag then f k else k) } := by
  simp only [State.updateJob, h, beq_iff_eq]

/-- A bay and a channel are set in either order. -/
theorem State.setChan_setBay (x : Channel) (y : Bay) : (s.setChan c x).setBay b y = (s.setBay b y).setChan c x := by
  cases c <;> rfl

@[simp] theorem State.bayStallTime_setChan (c : Chan) (x : Channel) (s : State) :
    (s.setChan c x).bayStallTime = s.bayStallTime := by cases c <;> rfl

@[simp] theorem State.eraseTimeLimit_setChan (c : Chan) (x : Channel) (s : State) :
    (s.setChan c x).eraseTimeLimit = s.eraseTimeLimit := by cases c <;> rfl

@[simp] theorem State.bayStallTime_setBay (b : BayNo) (y : Bay) (s : State) :
    (s.setBay b y).bayStallTime = s.bayStallTime := rfl

@[simp] theorem State.eraseTimeLimit_setBay (b : BayNo) (y : Bay) (s : State) :
    (s.setBay b y).eraseTimeLimit = s.eraseTimeLimit := rfl

/-- A command that comes due while its bay's line is ready is sent (R116). -/
theorem State.dueStalled_sent (hb : (s.chan c).bay = some b) (hr : (s.bay b).ready = true) (cmd : CartCommand) :
    s.dueStalled c cmd =
      (s.setBay b { s.bay b with ready := false }).setChan c
        { s.chan c with activity := .commandSent cmd (s.now + s.bayStallTime) } := by
  simp [State.dueStalled, State.dueCommand, hb, hr]

/-- The start of a RESIDENT or RETIRING title on a line that is ready: its header block's write is sent (R112, R115). -/
theorem State.titleStart_sent (ht : (s.chan c).tag = some tag) (he : (s.chan c).entry = some e)
    (hk : s.cart e.title = some k) (hs : k.state = .resident ∨ k.state = .retiring) (hb : (s.chan c).bay = some b)
    (hr : (s.bay b).ready = true) :
    s.titleStart c =
      (s.setBay b { s.bay b with ready := false }).setChan c
        { s.chan c with
          state := .header, set1 := (runSets k).1, set2 := (runSets k).2, second := false, sum := .zero
          block := e.offset
          activity := .commandSent (.writeBlock e.offset (headerBlock (s.chan c).index e.title tag k))
            (s.now + s.bayStallTime) } := by
  simp only [State.titleStart, ht, he, hk, hs, if_true]
  refine (State.dueStalled_sent (b := b) (by simpa using hb) (by simpa using hr) _).trans ?_
  cases c <;> rfl

/-- The context of a channel that has taken a job and sent its first title's header block (R109, R111, R115). -/
def Channel.started (tag : Nat) (b : BayNo) (titles : List PlanEntry) (e : PlanEntry) (k : CartTitle) (attempts limit : Nat) :
    Channel :=
  { state := .header, tag := some tag, bay := some b, titles := titles, index := 1, set1 := (runSets k).1
    set2 := (runSets k).2, second := false, sum := .zero, block := e.offset, attempts := attempts, stopping := false
    stopCause := none, activity := .commandSent (.writeBlock e.offset (headerBlock 1 e.title tag k)) limit }

/-- A channel takes a job and starts its first title (R109, R115). -/
theorem State.takeJob_started {rest : List PlanEntry} (hl : l.titles = e :: rest) (hk : s.cart e.title = some k)
    (hs : k.state = .resident ∨ k.state = .retiring) (hr : (s.bay b).ready = true) :
    s.takeJob c j b l =
      ((((s.updateJob j.tag (fun j => { j with holder := some c })).saveLoan j.tag { l with state := .copying }).setBay b
        { s.bay b with state := .writing, ready := false }).setChan c
        (.started j.tag b l.titles e k j.attempts (s.now + s.bayStallTime))) := by
  let u := (s.updateJob j.tag (fun j => { j with holder := some c })).saveLoan j.tag { l with state := .copying }
  have bay : u.bay b = s.bay b := rfl
  have cart : State.cart ((u.setBay b { u.bay b with state := .writing }).setChan c
      { Channel.cleared with
        state := .header, tag := some j.tag, bay := some b, titles := l.titles, index := 1
        attempts := j.attempts }) e.title = some k := (State.cart_congr (by simp; rfl) _).trans hk
  refine (State.titleStart_sent (tag := j.tag) (e := e) (b := b) (by simp) (by simp [Channel.entry, hl]) cart hs (by simp)
    (by simpa [bay] using hr)).trans ?_
  rw [State.bay_setChan, State.bay_setBay_self, State.chan_setChan_self, State.setChan_setBay, State.setBay_setBay,
    State.setChan_setChan, State.setChan_now, State.bayStallTime_setChan, State.bayStallTime_setBay, bay]
  rfl

/-- The one job that has a bay and no holder is the one to take, its loan PLANNED and its bay RESERVED (R108, R109). -/
theorem State.takeable_only (hj : j ∈ s.copyQueue) (hh : j.holder = none) (hb : j.bay = some b)
    (hl : s.loan j.tag = some l) (hp : l.state = .planned) (hr : (s.bay b).state = .reserved)
    (only : ∀ k ∈ s.copyQueue, k.holder = none → k.bay ≠ none → k = j) : s.takeable = some (j, b, l) := by
  unfold State.takeable
  generalize s.copyQueue = q at hj only
  induction q with
  | nil => simp at hj
  | cons x q ih =>
    by_cases hx : x = j
    · subst hx
      simp [hh, hb, hl, hp, hr]
    · have mem : j ∈ q := (List.mem_cons.mp hj).resolve_left (Ne.symm hx)
      have later := ih mem fun k hk => only k (List.mem_cons_of_mem _ hk)
      have free : x.holder ≠ none ∨ x.bay = none := by
        by_contra both
        push Not at both
        exact hx (only x (List.mem_cons_self ..) both.1 both.2)
      rw [List.findSome?_cons, later]
      rcases free with held | bayless
      · obtain ⟨d, hd⟩ := Option.ne_none_iff_exists'.mp held
        simp [hd]
      · cases x.holder <;> simp [bayless]

/-- An IDLE channel takes the one job that is ready (R109). -/
theorem State.handOver_takes (hi : s.idleChannel = some c) (ht : s.takeable = some (j, b, l))
    (hf : s.fits (s.takeJob c j b l) = true) (hn : (s.takeJob c j b l).noneReady) :
    s.handOver = s.takeJob c j b l := by
  unfold State.handOver
  cases hq : s.copyQueue with
  | nil => simp [State.takeable, hq] at ht
  | cons x q =>
    have stop (n : Nat) : handOverUpTo n (s.takeJob c j b l) = s.takeJob c j b l := by
      cases n with
      | zero => rfl
      | succ n =>
        simp only [handOverUpTo, State.takeable_noneReady hn]
        cases State.idleChannel (s.takeJob c j b l) <;> rfl
    simp only [List.length_cons, handOverUpTo, hi, ht, hf, if_true, stop]

theorem State.giveBay_eq (hl : s.loan tag = some l) :
    s.giveBay tag b =
      State.updateJob tag (fun j => { j with bay := some b, attempts := 0, rehome := none })
        ((s.setBay b { s.bay b with state := .reserved, tag := some tag }).saveLoan tag { l with bay := some b }) := by
  simp only [State.giveBay, hl]

@[simp] theorem State.loan_saveLoan (tag : Nat) (l : Loan) (s : State) : (s.saveLoan tag l).loan tag = some l :=
  Table.find_set_self ..

theorem State.updateJob_saveLoan (f : Job → Job) (n : Nat) (l : Loan) :
    (s.updateJob tag f).saveLoan n l = (s.saveLoan n l).updateJob tag f := rfl

theorem State.updateJob_setBay (f : Job → Job) (x : Bay) :
    (s.updateJob tag f).setBay b x = (s.setBay b x).updateJob tag f := rfl

theorem State.saveLoan_setBay (n : Nat) (l : Loan) (x : Bay) :
    (s.saveLoan n l).setBay b x = (s.setBay b x).saveLoan n l := rfl

theorem State.saveLoan_setChan (n : Nat) (l : Loan) (x : Channel) :
    (s.saveLoan n l).setChan c x = (s.setChan c x).saveLoan n l := by cases c <;> rfl

@[simp] theorem State.saveLoan_units (n : Nat) (l : Loan) (s : State) :
    (s.saveLoan n l).writeQueue.length = s.writeQueue.length + 1 := by simp [State.saveLoan]

@[simp] theorem State.saveLoan_copyQueue (n : Nat) (l : Loan) (s : State) : (s.saveLoan n l).copyQueue = s.copyQueue := rfl

/-- The part once a job has been given a bay and a channel has taken it, its first title's header block sent. -/
def State.givenTaken (tag : Nat) (b : BayNo) (c : Chan) (l : Loan) (e : PlanEntry) (k : CartTitle) (s : State) : State :=
  State.updateJob tag (fun j => { j with bay := some b, attempts := 0, holder := some c, rehome := none })
    ((((s.setBay b { s.bay b with state := .writing, tag := some tag, ready := false }).saveLoan tag
        { l with bay := some b }).saveLoan tag { l with state := .copying, bay := some b }).setChan c
      (.started tag b l.titles e k 0 (s.now + s.bayStallTime)))

/-- A job without a holder that is given a bay, every other job held or without one: the IDLE channel takes it at once
(R100, R109). -/
theorem State.giveBay_taken {rest : List PlanEntry} (hj : j ∈ s.copyQueue) (ht : j.tag = tag) (hh : j.holder = none)
    (hl : s.loan tag = some l) (hp : l.state = .planned) (hi : s.idleChannel = some c) (htitles : l.titles = e :: rest)
    (hk : s.cart e.title = some k) (hs : k.state = .resident ∨ k.state = .retiring) (hr : (s.bay b).ready = true)
    (others : ∀ i ∈ s.copyQueue, i.tag ≠ tag → i.holder ≠ none ∨ i.bay = none)
    (room : s.writeQueue.length < 127) : (s.giveBay tag b).handOver = s.givenTaken tag b c l e k := by
  subst ht
  let job : Job := { tag := j.tag, bay := some b, attempts := 0, holder := none, rehome := none }
  let given := (s.setBay b { s.bay b with state := .reserved, tag := some j.tag }).saveLoan j.tag { l with bay := some b }
  have give : s.giveBay j.tag b =
      given.updateJob j.tag (fun j => { j with bay := some b, attempts := 0, rehome := none }) := State.giveBay_eq hl
  have mem : job ∈ (s.giveBay j.tag b).copyQueue := by
    rw [give, State.updateJob_copyQueue, List.mem_map]
    exact ⟨j, hj, by simp [job, hh]⟩
  have only : ∀ i ∈ (s.giveBay j.tag b).copyQueue, i.holder = none → i.bay ≠ none → i = job := by
    intro i hi' hnone hsome
    rw [give, State.updateJob_copyQueue, List.mem_map] at hi'
    obtain ⟨x, hx, rfl⟩ := hi'
    by_cases hxt : x.tag = j.tag
    · simp only [hxt, beq_self_eq_true, if_true] at hnone ⊢
      simp [job, hnone]
    · simp only [beq_eq_false_iff_ne.mpr hxt] at hnone hsome
      rcases others x hx hxt with h | h
      · exact absurd hnone h
      · exact absurd h hsome
  have takeable : (s.giveBay j.tag b).takeable = some (job, b, { l with bay := some b }) := by
    refine State.takeable_only mem rfl rfl ?_ hp ?_ only
    · rw [give]; exact State.loan_saveLoan ..
    · rw [give, State.bay_updateJob]
      exact congrArg Bay.state (State.bay_setBay_self ..)
  have started : (s.giveBay j.tag b).takeJob c job b { l with bay := some b } = s.givenTaken j.tag b c l e k := by
    have cart : (s.giveBay j.tag b).cart e.title = some k := (State.cart_congr (by rw [give]; rfl) _).trans hk
    have bay : (s.giveBay j.tag b).bay b = { s.bay b with state := .reserved, tag := some j.tag } := by
      rw [give, State.bay_updateJob]
      exact State.bay_setBay_self ..
    rw [State.takeJob_started (l := { l with bay := some b }) htitles cart hs (by rw [bay]; exact hr), bay]
    have limit : (s.giveBay j.tag b).now + (s.giveBay j.tag b).bayStallTime = s.now + s.bayStallTime := by
      rw [give]; rfl
    rw [limit, show job.tag = j.tag from rfl, give,
      State.updateJob_updateJob (f := fun j => { j with bay := some b, attempts := 0, rehome := none }) (fun _ => rfl),
      State.updateJob_saveLoan, State.updateJob_setBay, State.updateJob_setChan, State.saveLoan_setBay,
      State.saveLoan_setBay, State.setBay_setBay]
    rfl
  have idle : (s.giveBay j.tag b).idleChannel = some c := by
    rw [give]
    exact hi
  refine (State.handOver_takes idle takeable ?_ ?_).trans started
  · refine State.fits_room ?_
    rw [started]
    simp only [State.givenTaken, State.updateJob_writeQueue, State.setChan_writeQueue, State.saveLoan_units,
      State.setBay_writeQueue, Config.maxUnits]
    omega
  · rw [started]
    intro i hi'
    simp only [State.givenTaken, State.updateJob_copyQueue, State.setChan_copyQueue, State.saveLoan_copyQueue,
      State.setBay_copyQueue, List.mem_map] at hi'
    obtain ⟨x, hx, rfl⟩ := hi'
    by_cases hxt : x.tag = j.tag
    · simp [hxt]
    · simpa [hxt] using others x hx hxt

end

end Sys2Proof.Machine
end

section
/-! CERTIFICATES. The returns station: its sensor, its tag card and its timers (R154 to R163, R165). -/

namespace Sys2Proof.Machine

/-! ### The Loan Table's answer for a card (R157, R163) -/

section
variable {s : State} {tag patron : Nat} {l : Loan}

/-- A loan is out exactly in MAILED and OVERDUE. -/
theorem LoanState.out_iff (x : LoanState) : x.out = true ↔ x = .mailed ∨ x = .overdue := by
  cases x <;> simp [LoanState.out]

theorem State.outLoan_ok (low : 1 ≤ tag) (high : tag ≤ 1048575) (hl : s.loan tag = some l) (hp : l.patron = patron)
    (hout : l.state = .mailed ∨ l.state = .overdue) : s.outLoan tag patron = .ok l := by
  have range : ¬ (tag = 0 ∨ Config.maxTag < tag) := by simp only [Config.maxTag]; omega
  have out : l.state.out = true := (LoanState.out_iff _).mpr hout
  simp only [State.outLoan, if_neg range, hl, hp, ne_eq, not_true_eq_false, if_false, out, if_true]

/-- A record that names another reader, or one that is not out. -/
theorem State.outLoan_other (low : 1 ≤ tag) (high : tag ≤ 1048575) (hl : s.loan tag = some l)
    (h : l.patron ≠ patron ∨ (l.state ≠ .mailed ∧ l.state ≠ .overdue)) :
    s.outLoan tag patron = .error (if l.patron = patron then .notOut else .unknownTag) := by
  have range : ¬ (tag = 0 ∨ Config.maxTag < tag) := by simp only [Config.maxTag]; omega
  by_cases same : l.patron = patron
  · have home : ¬ l.state.out = true := by
      rw [LoanState.out_iff, not_or]
      exact h.resolve_left (not_not.mpr same)
    simp [State.outLoan, if_neg range, hl, same, home]
  · simp [State.outLoan, hl, same]

theorem State.outLoan_unknown (h : tag = 0 ∨ 1048575 < tag ∨ s.loan tag = none) :
    s.outLoan tag patron = .error .unknownTag := by
  unfold State.outLoan
  by_cases range : tag = 0 ∨ Config.maxTag < tag
  · rw [if_pos range]
  · have absent : s.loan tag = none := by
      simp only [Config.maxTag, not_or] at range
      tauto
    simp only [if_neg range, absent]

/-- A tag whose record, if there is one, names another reader. -/
theorem State.outLoan_stranger (h : ∀ l, s.loan tag = some l → l.patron ≠ patron) :
    s.outLoan tag patron = .error .unknownTag := by
  unfold State.outLoan
  split
  · rfl
  · cases hl : s.loan tag with
    | none => rfl
    | some l => simp [h l hl]

end

/-! ### A failed recognition (R165) -/

section
variable {s : State} {tag : Nat} {why : Reason} {stage : Stage}

@[simp] theorem State.failRecognition_writeQueue (why : Reason) (stage : Stage) (tag : Nat) (s : State) :
    (s.failRecognition why stage tag).writeQueue = s.writeQueue := by simp [State.failRecognition]

@[simp] theorem State.failRecognition_bays (why : Reason) (stage : Stage) (tag : Nat) (s : State) :
    (s.failRecognition why stage tag).bays = s.bays := by simp [State.failRecognition]

/-- RETURN UNREAD names a tag in range as it was read. -/
theorem State.failRecognition_tag (low : 1 ≤ tag) (high : tag ≤ 1048575) :
    s.failRecognition why stage tag = State.notify .fp
      (noteFor .returnUnread tag why [stage.number, s.recog.gapCount, s.recog.longestGap])
      { s with recog := s.recog.stop } := by
  have range : 1 ≤ tag ∧ tag ≤ Config.maxTag := ⟨low, high⟩
  simp only [State.failRecognition, if_pos range]

theorem State.failHere_tag (hs : s.recog.stage = stage) (ht : s.recog.tag = some tag) :
    s.failHere why = s.failRecognition why stage tag := by
  simp only [State.failHere, hs, ht, orZero]

theorem State.failHere_noTag (hs : s.recog.stage = stage) (ht : s.recog.tag = none) :
    s.failHere why = State.notify .fp
      (noteFor .returnUnread 0 why [stage.number, s.recog.gapCount, s.recog.longestGap])
      { s with recog := s.recog.stop } := by
  simp only [State.failHere, hs, ht, orZero]
  rfl

/-- The recognizer settles once dwell is met, with a tag kept and no gap (R158). -/
theorem State.settle_yes (hd : s.recog.dwellMet = true) (hs : s.recog.stage = .tagRead) (hp : s.recog.presence = true)
    (hg : s.recog.dropoutTimer = none) :
    s.settle = { s with
      recog :=
        { s.recog with
          stage := .settled, dropoutTimer := none, dwellTimer := none
          departureTimer := some (s.now + s.departureWindow) } } := by
  simp only [State.settle, hd, hs, hp, hg, and_self, if_true]

theorem State.settle_no (h : s.recog.dwellMet = false ∨ s.recog.stage ≠ .tagRead) : s.settle = s := by
  unfold State.settle
  rw [if_neg]
  rintro ⟨dwell, stage, _⟩
  rcases h with h | h
  · exact Bool.noConfusion (h.symm.trans dwell)
  · exact h stage

end

/-! ### The sensor and the card -/

section
variable {s : State} {limit tag patron : Nat} {answer : List Byte} {l : Loan}

/-- A recognizer whose gap has ended and been counted (R159). -/
def Recognizer.counted (now : Nat) (r : Recognizer) : Recognizer :=
  { r with
    presence := true, dropoutTimer := none, gapCount := min 255 (r.gapCount + 1)
    longestGap := max r.longestGap (now - r.gapStart) }

/-- The rise that ends a gap before SETTLED, within its limit. -/
theorem takeReturnsPresenceRise_gap (hp : s.recog.presence = false) (hg : s.recog.dropoutTimer = some limit)
    (hs : s.recog.stage = .sensed ∨ s.recog.stage = .tagRead) (within : s.now ≤ limit) :
    takeReturnsPresenceRise s = State.settle { s with recog := s.recog.counted s.now } := by
  rcases hs with hs | hs <;>
    simp [takeReturnsPresenceRise, hp, hs, hg, State.endGap, min_eq_left within, countUp, Recognizer.counted]

theorem takeReadTagAnswer_card (hs : s.recog.stage = .sensed) (hr : s.recog.readOutstanding = true)
    (ha : parseTagAnswer answer = .card tag patron) : takeReadTagAnswer answer s = s.lookUp tag patron := by
  simp only [takeReadTagAnswer, hs, hr, and_self, if_true, ha]

/-- A card that does not stand for a loan of its reader that is out fails the recognition (R157). -/
theorem State.lookUp_error {why : Reason} (h : s.outLoan tag patron = .error why) :
    s.lookUp tag patron = State.notify .fp
      (noteFor .returnUnread (if 1 ≤ tag ∧ tag ≤ 1048575 then tag else 0) why
        [Stage.sensed.number, s.recog.gapCount, s.recog.longestGap])
      { s with recog := s.recog.stop } := by
  simp only [State.lookUp, h]
  rfl

theorem State.lookUp_ok (h : s.outLoan tag patron = .ok l) (hd : s.recog.dwellMet = false) :
    s.lookUp tag patron = { s with
      recog :=
        { s.recog with
          stage := .tagRead, readOutstanding := false, tagReadTimer := none, tag := some tag
          patron := some patron } } := by
  simp only [State.lookUp, h]
  exact State.settle_no (.inl hd)

end

/-- Settles O55: the sensor by the stage it rises or falls in, the card by the loan that it names. -/
theorem returnsSensorAndCard : Obligations.ReturnsSensorAndCard := by
  intro s
  refine ⟨fun hs hp hm => exec_plain rfl ?begins rfl rfl, fun hs hp => exec_plain rfl ?gap rfl rfl,
    fun limit hp hg within => ?ended, fun hs hp => exec_plain rfl ?departs rfl rfl,
    fun limit hs hp hc => exec_plain rfl ?falseDeparture rfl rfl, fun answer hs hr ha => exec_plain rfl ?noCard rfl rfl,
    fun answer tag patron hs hr ha => ?card⟩
  case begins => simp [takeReturnsPresenceRise, hp, hs, State.isReady, hm, State.beginRecognition]
  case gap => rcases hs with hs | hs <;> simp [takeReturnsPresenceFall, hp, hs, State.beginGap]
  case departs => simp [takeReturnsPresenceFall, hp, hs]
  case falseDeparture => simp [takeReturnsPresenceRise, hp, hs, hc, countUp]
  case noCard => simp [takeReadTagAnswer, hs, hr, ha]
  case ended =>
    intro counted
    refine ⟨fun hs => ?_, fun hs met => ?_⟩
    · have stage : s.recog.stage = .sensed ∨ s.recog.stage = .tagRead := hs.imp id And.left
      have stays : (s.recog.counted s.now).dwellMet = false ∨ (s.recog.counted s.now).stage ≠ .tagRead := by
        rcases hs with hs | hs
        · exact .inr (by simp [Recognizer.counted, hs])
        · exact .inl hs.2
      exact exec_plain rfl ((takeReturnsPresenceRise_gap hp hg stage within).trans (State.settle_no stays)) rfl rfl
    · exact exec_plain rfl
        ((takeReturnsPresenceRise_gap hp hg (.inr hs) within).trans (State.settle_yes met hs rfl rfl)) rfl rfl
  case card =>
    have taken := takeReadTagAnswer_card hs hr ha
    refine ⟨fun l low high hl hpat hout met => ?_, fun l low high hl other => ?_, fun unknown => ?_⟩
    · exact exec_plain rfl (taken.trans (State.lookUp_ok (State.outLoan_ok low high hl hpat hout) met)) rfl rfl
    · have failed := State.lookUp_error (State.outLoan_other low high hl other)
      rw [if_pos ⟨low, high⟩] at failed
      exact exec_plain rfl (taken.trans failed) (by simp) (by simp)
    · exact exec_plain rfl (taken.trans (State.lookUp_error (State.outLoan_unknown unknown))) (by simp) (by simp)

/-! ### The timers -/

section
variable {s : State} {limit tag slot : Nat} {l : Loan} {p : Patron}

theorem takeDepartureTimerExpiry_case (hs : s.recog.stage = .settled) (h : s.recog.departureTimer = some limit) :
    takeDepartureTimerExpiry s = (s.expire limit).failHere .stuck := by simp only [takeDepartureTimerExpiry, hs, h]

theorem takeDropoutTimerExpiry_case (h : s.recog.dropoutTimer = some limit) :
    takeDropoutTimerExpiry s = (s.expire limit).failHere .bounce := by simp only [takeDropoutTimerExpiry, h]

theorem takeTagReadTimerExpiry_case (hs : s.recog.stage = .sensed) (h : s.recog.tagReadTimer = some limit) :
    takeTagReadTimerExpiry s = (s.expire limit).failHere .noTag := by simp only [takeTagReadTimerExpiry, hs, h]

theorem takeDwellTimerExpiry_case (h : s.recog.dwellTimer = some limit) :
    takeDwellTimerExpiry s =
      State.settle { s with
        now := max s.now limit, recog := { s.recog with dwellMet := true, dwellTimer := none } } := by
  simp only [takeDwellTimerExpiry, h]
  rfl

theorem takeClearTimerExpiry_case (hs : s.recog.stage = .settled) (h : s.recog.clearTimer = some limit) :
    takeClearTimerExpiry s = (s.expire limit).depart := by simp only [takeClearTimerExpiry, hs, h]

/-- A departure whose loan no longer stands for the card fails the recognition (R163). -/
theorem State.depart_error {patron : Nat} {why : Reason} (ht : s.recog.tag = some tag)
    (hp : s.recog.patron = some patron) (h : s.outLoan tag patron = .error why) :
    s.depart = s.failRecognition why .accepted tag := by
  simp only [State.depart, ht, hp, orZero, h]

/-- A departure accepted: the loan RETURNING, the reader's counts moved, both ports told (R162). -/
theorem State.depart_ok (ht : s.recog.tag = some tag) (hp : s.recog.patron = some l.patron)
    (h : s.outLoan tag l.patron = .ok l) (hr : s.reader l.patron = some (slot, p)) :
    s.depart =
      State.notify .fp
        (note .returnAccepted tag [l.medium.number, s.recog.gapCount, s.recog.longestGap, s.recog.falseDepartures])
        (State.notify .cp (note .returnAccepted tag [l.patron])
          (State.trigger
            (({ s with recog := s.recog.stop }.saveLoan tag { l with state := .returning }).putPatron slot
              { p with loansOut := p.loansOut - 1, returnsOpen := p.returnsOpen + 1 }))) := by
  have reader : (s.saveLoan tag { l with state := .returning }).reader l.patron = some (slot, p) := hr
  simp only [State.depart, ht, hp, orZero, h, State.acceptReturn, reader]
  rfl

end

/-- Settles O56: each of the five timers by the stage it runs in; the acceptance by the loan at the departure. -/
theorem returnsTimers : Obligations.ReturnsTimers := by
  intro s limit failed
  refine ⟨fun hs ht => ⟨fun h => ?noTag, fun h => ?bounce, fun h => ?dwell⟩, fun hs hp hg h => ?settles,
    fun tag hs ht low high h => ?bounced, fun tag hs ht low high => ⟨fun h => ?stuck, ?clear, ?stranger⟩⟩
  case noTag =>
    exact exec_plain rfl ((takeTagReadTimerExpiry_case hs h).trans (State.failHere_noTag (stage := .sensed) hs ht))
      (by simp) (by simp)
  case bounce =>
    exact exec_plain rfl ((takeDropoutTimerExpiry_case h).trans (State.failHere_noTag (stage := .sensed) hs ht))
      (by simp) (by simp)
  case dwell =>
    have sensed : s.recog.stage ≠ .tagRead := by simp [hs]
    exact exec_plain rfl ((takeDwellTimerExpiry_case h).trans (State.settle_no (.inr sensed))) rfl rfl
  case settles =>
    exact exec_plain rfl ((takeDwellTimerExpiry_case h).trans (State.settle_yes rfl hs hp hg)) rfl rfl
  case bounced =>
    exact exec_plain rfl ((takeDropoutTimerExpiry_case h).trans
      ((State.failHere_tag (s := s.expire limit) hs ht).trans (State.failRecognition_tag low high))) (by simp) (by simp)
  case stuck =>
    exact exec_plain rfl ((takeDepartureTimerExpiry_case hs h).trans
      ((State.failHere_tag (s := s.expire limit) hs ht).trans (State.failRecognition_tag low high))) (by simp) (by simp)
  case clear =>
    intro l slot p h hpat hl room hr
    refine ⟨fun out => ?_, fun mailed overdue => ?_⟩
    · have accepted := State.depart_ok (s := s.expire limit) (slot := slot) (p := p) ht hpat
        (State.outLoan_ok low high hl rfl out) hr
      refine exec_roomPlain rfl ((takeClearTimerExpiry_case hs h).trans accepted) ?_ (by simp)
      simp [Config.maxUnits]
      omega
    · have other := State.outLoan_other (s := s.expire limit) (patron := l.patron) low high hl (.inr ⟨mailed, overdue⟩)
      rw [if_pos rfl] at other
      exact exec_plain rfl ((takeClearTimerExpiry_case hs h).trans
        ((State.depart_error (s := s.expire limit) ht hpat other).trans (State.failRecognition_tag low high))) (by simp) (by simp)
  case stranger =>
    intro patron h hpat none
    exact exec_plain rfl ((takeClearTimerExpiry_case hs h).trans
      ((State.depart_error (s := s.expire limit) ht hpat (State.outLoan_stranger none)).trans (State.failRecognition_tag low high)))
      (by simp) (by simp)

end Sys2Proof.Machine
end

section
/-! CERTIFICATES. The bytes of a request frame read back as its command (section 11.1). -/

namespace Sys2Proof.Machine

/-! ### Numbers in bytes -/

/-- The low bytes of a number, read back, are the number in that many bytes. -/
theorem foldl_bytesOfNat (n v acc : Nat) :
    (bytesOfNat n v).foldl (fun acc b => acc * 256 + b.toNat) acc = acc * 256 ^ n + v % 256 ^ n := by
  induction n generalizing acc with
  | zero => simp [bytesOfNat, Nat.mod_one]
  | succ n ih =>
    have split : v % 256 ^ (n + 1) = 256 ^ n * (v / 256 ^ n % 256) + v % 256 ^ n := by
      rw [pow_succ, Nat.mod_mul, Nat.add_comm]
    simp only [bytesOfNat, List.foldl_cons, ih, BitVec.toNat_ofNat, split, Nat.reducePow]
    ring

theorem natOfBytes_bytesOfNat {n v : Nat} (h : v < 256 ^ n) : natOfBytes (bytesOfNat n v) = v := by
  rw [natOfBytes, foldl_bytesOfNat, Nat.zero_mul, Nat.zero_add, Nat.mod_eq_of_lt h]

/-- The check byte makes up the sum of the bytes it checks (section 11.1). -/
theorem checkByte_sum (bs : List Byte) : (natOfBytes [checkByte bs] + byteSum bs) % 256 = 255 := by
  simp only [natOfBytes, checkByte, List.foldl_cons, List.foldl_nil, Nat.zero_mul, Nat.zero_add, BitVec.toNat_ofNat,
    Nat.reducePow]
  omega

/-! ### The header of a frame -/

section
variable {f : Frame} {code : Byte} {atOnce : Bool}

/-- The seven header bytes of a frame. -/
def frameHeader (code : Byte) (f : Frame) : List Byte :=
  let head := code :: (bytesOfNat 2 f.payload.length ++ bytesOfNat 3 f.key.toNat)
  head ++ [checkByte head]

theorem frameBytes_eq (code : Byte) (f : Frame) : frameBytes code f = frameHeader code f ++ f.payload := rfl

@[simp] theorem frameHeader_length (code : Byte) (f : Frame) : (frameHeader code f).length = 7 := rfl

theorem frameHeader_payload (h : frameOk f = true) : natOfBytes (slice 1 2 (frameHeader code f)) = f.payload.length := by
  have short : f.payload.length < 256 ^ 2 := by
    have bound : f.payload.length ≤ 4098 := of_decide_eq_true h
    omega
  exact natOfBytes_bytesOfNat short

theorem frameHeader_key : natOfBytes (slice 3 3 (frameHeader code f)) = f.key.toNat := by
  have short : f.key.toNat < 256 ^ 3 := f.key.isLt
  exact natOfBytes_bytesOfNat short

/-- A header so written passes its check and announces no more than it may. -/
theorem frameHeader_passes (h : frameOk f = true) : headerMalformed (frameHeader code f) = false := by
  have checked : headerCheck (frameHeader code f) = true := by
    rw [headerCheck, frameHeader_length, Bool.and_eq_true]
    exact ⟨rfl, beq_iff_eq.mpr (checkByte_sum _)⟩
  simpa [headerMalformed, checked, frameHeader_payload h, frameOk] using h

/-! ### Reading a frame back -/

/-- The command of a frame whose header passes: its code's request, or an unlisted code. -/
def frameCommand (f : Frame) (atOnce : Bool) (code : Byte) : Instr :=
  match codeOf code.toNat with
  | some r => requestCommand f atOnce r
  | none => .unknownRequestCode f code

/-- The bytes of a frame read back as the command of its code, key and payload. -/
theorem decodeFrame_frameBytes (h : frameOk f = true) :
    decodeFrame f.port atOnce (frameBytes code f) = some (frameCommand f atOnce code) := by
  have header : (frameBytes code f).take 7 = frameHeader code f := by
    rw [frameBytes_eq, List.take_left' (frameHeader_length code f)]
  have payload : slice 7 f.payload.length (frameBytes code f) = f.payload := by
    rw [slice, frameBytes_eq, List.drop_left' (frameHeader_length code f), List.take_length]
  have length : (frameBytes code f).length = 7 + f.payload.length := by
    rw [frameBytes_eq, List.length_append, frameHeader_length]
  have enough : ¬ (frameBytes code f).length < 7 := by omega
  have all : ¬ (frameBytes code f).length < 7 + f.payload.length := by omega
  have key : BitVec.ofNat 24 (natOfBytes (slice 3 3 (frameHeader code f))) = f.key := by
    rw [frameHeader_key, BitVec.ofNat_toNat, BitVec.setWidth_eq]
  unfold decodeFrame
  simp only [header, frameHeader_payload h, frameHeader_passes h, payload, key, if_neg enough, if_neg all,
    Bool.false_eq_true, if_false]
  simp only [frameBytes, frameCommand, List.cons_append]
  cases codeOf code.toNat <;> rfl

/-- A malformed header of seven bytes reads back as itself. -/
theorem decodeFrame_malformed {p : Port} {header : List Byte} (hl : header.length = 7)
    (hm : headerMalformed header = true) : decodeFrame p atOnce header = some (.malformedHeader p header) := by
  have whole : header.take 7 = header := List.take_of_length_le hl.le
  simp only [decodeFrame, whole, hl, lt_irrefl, if_false, hm, if_true]

end

/-! ### Requests and their codes -/

section
variable {i : Instr} {f : Frame} {atOnce : Bool} {r : ReqCode}

/-- A code written in a byte is the request's. -/
theorem codeOf_codeNumber (r : ReqCode) : codeOf (BitVec.ofNat 8 (codeNumber r)).toNat = some r := by
  cases r <;> rfl

/-- A request command is put together again from its code, frame and hand-over. -/
theorem requestCommand_requestOf (h : requestOf i = some (r, f, atOnce)) : requestCommand f atOnce r = i := by
  cases i <;> cases h <;> rfl

/-- A request command is well formed where its frame is. -/
theorem requestCommand_wellFormed (f : Frame) (atOnce : Bool) (r : ReqCode) :
    (requestCommand f atOnce r).wellFormed = frameOk f := by
  cases r <;> rfl

end

/-- Settles O57: a request frame's header passes its check, and its code, key and payload are read back; a malformed
header and an unlisted code read back as themselves. -/
theorem frameRoundTrip : Obligations.FrameRoundTrip := by
  intro i p atOnce bytes wf encoded
  unfold encodeFrame at encoded
  split at encoded
  next p header =>
    cases encoded
    rw [Instr.wellFormed, Bool.and_eq_true, beq_iff_eq] at wf
    exact decodeFrame_malformed wf.1 wf.2
  next f code =>
    cases encoded
    rw [Instr.wellFormed, Bool.and_eq_true, Option.isNone_iff_eq_none] at wf
    rw [decodeFrame_frameBytes wf.1, frameCommand, wf.2]
  next =>
    obtain ⟨⟨r, f, a⟩, request, framed⟩ := Option.map_eq_some_iff.mp encoded
    cases framed
    have command : requestCommand f atOnce r = i := requestCommand_requestOf request
    have ok : frameOk f = true := by rw [← requestCommand_wellFormed f atOnce r, command, wf]
    simp only [decodeFrame_frameBytes ok, frameCommand, codeOf_codeNumber, command]

end Sys2Proof.Machine
end

section
/-! CERTIFICATES. The end of a newly seated cartridge's reading, by what the cartridge is (R53, R93 to R95, R99). -/

namespace Sys2Proof.Machine

/-! ### A closing leaves the bays alone -/

section
variable {s : State} {b : BayNo} {x : Bay}

theorem State.closeLoan_setBay (tag : Nat) (u : WriteUnit) :
    (s.closeLoan tag u).setBay b x = (s.setBay b x).closeLoan tag u := by
  rw [State.closeLoan_eq, State.closeLoan_eq]
  rfl

theorem State.lowerReturnsOpen_setBay (number : Nat) :
    (s.lowerReturnsOpen number).setBay b x = (s.setBay b x).lowerReturnsOpen number := by
  rw [State.lowerReturnsOpen_eq, State.lowerReturnsOpen_eq]
  rfl

theorem State.lowerLoansOut_setBay (number : Nat) :
    (s.lowerLoansOut number).setBay b x = (s.setBay b x).lowerLoansOut number := by
  rw [State.lowerLoansOut_eq, State.lowerLoansOut_eq]
  rfl

theorem State.notify_setBay (p : Port) (n : Notice) : (s.notify p n).setBay b x = (s.setBay b x).notify p n := by
  cases p <;> rfl

theorem SameCopySide.lowerReturnsOpen (number : Nat) (s : State) : SameCopySide s (s.lowerReturnsOpen number) := by
  rw [State.lowerReturnsOpen_eq]; exact ⟨rfl, rfl, rfl, rfl, rfl⟩

theorem SameCopySide.lowerLoansOut (number : Nat) (s : State) : SameCopySide s (s.lowerLoansOut number) := by
  rw [State.lowerLoansOut_eq]; exact ⟨rfl, rfl, rfl, rfl, rfl⟩

end

/-! ### The loan that an identity names (R53, R95) -/

section
variable {s : State} {b : BayNo} {i : Identity} {l : Loan} {tag : Nat}

theorem State.namedLoan_found (hc : i.content = .recorded) (low : 1 ≤ i.tagArea) (high : i.tagArea ≤ 1048575)
    (hl : s.loan i.tagArea = some l) (hm : l.medium = .cartridge)
    (hs : l.state = .written ∨ l.state = .mailed ∨ l.state = .overdue ∨ l.state = .returning)
    (serial : l.serial = some i.serial) : s.namedLoan i = some (i.tagArea, l) := by
  simp only [State.namedLoan, hl]
  exact if_pos ⟨hc, low, high, hm, hs, serial⟩

/-- A blank cartridge names no loan. -/
theorem State.namedLoan_blank (h : i.content = .blank) : s.namedLoan i = none := by
  unfold State.namedLoan
  split
  · rfl
  · exact if_neg (by simp [h])

/-! ### The classification of an identified cartridge (R95) -/

/-- The bay whose identity record has been read, with C and U (R94). -/
def Bay.identifiedAs (i : Identity) (x : Bay) : Bay :=
  { x with
    identity := some i, clamped := clampedCapacity i.capacity, usable := usableCapacity (clampedCapacity i.capacity)
    command := none, ready := true }

theorem State.classify_small {x : Bay} (hi : x.identity = some i) (small : x.clamped < 4096) :
    (s.setBay b x).classify b i =
      State.notify .fp (noteFor .bayRejected b.val .unsuited [i.serial, i.wear])
        (s.setBay b (x.rejectedFor .unsuited)) := by
  have below : ((s.setBay b x).bay b).clamped < Config.minCapacity := by rw [State.bay_setBay_self]; exact small
  unfold State.classify
  rw [if_pos below, State.rejectBay_setBay .unsuited hi]
  rfl

theorem State.classify_named (large : 4096 ≤ (s.bay b).clamped) (h : s.namedLoan i = some (tag, l)) :
    s.classify b i =
      if l.state = .written then
        (s.setBay b { s.bay b with state := .written, tag := some tag }).saveLoan tag { l with bay := some b }
      else (s.closeIdentified tag l).startErase b := by
  have enough : ¬ (s.bay b).clamped < Config.minCapacity := not_lt.mpr large
  unfold State.classify
  rw [if_neg enough, h]

theorem State.classify_unnamed (large : 4096 ≤ (s.bay b).clamped) (h : s.namedLoan i = none) :
    s.classify b i =
      if i.content = .recorded then s.startErase b
      else if s.wearLimit ≤ i.wear then s.rejectBay b .worn
      else s.becomeBlank b := by
  have enough : ¬ (s.bay b).clamped < Config.minCapacity := not_lt.mpr large
  unfold State.classify
  rw [if_neg enough, h]

/-! ### The reading's end (R93) -/

section
variable {limit : Nat} {record : List Byte} (hs : (s.bay b).state = .identifying)
  (hc : (s.bay b).command = some (.readIdentity, limit))
include hs hc

theorem takeIdentityRecordReceived_case (hp : parseIdentity record = some i) :
    takeIdentityRecordReceived b record s =
      State.handOver ((s.setBay b ((s.bay b).identifiedAs i)).classify b i) := by
  have identified : (s.endBayCommand b).recordIdentity b i = s.setBay b ((s.bay b).identifiedAs i) := by
    simp only [State.recordIdentity, State.endBayCommand, State.bay_setBay_self, State.setBay_setBay]
    rfl
  simp only [takeIdentityRecordReceived, hs, hc, hp, identified]

theorem takeIdentityRecordReceived_malformed (hp : parseIdentity record = none) :
    takeIdentityRecordReceived b record s = (s.endBayCommand b).rejectBay b .unsuited := by
  simp only [takeIdentityRecordReceived, hs, hc, hp]

theorem takeIdentifyStallExpiry_case :
    takeIdentifyStallExpiry b s = (s.expire limit).rejectBay b .unsuited := by
  simp only [takeIdentifyStallExpiry, hs, hc]

end

/-! ### A returned loan (R53) -/

theorem State.closeIdentified_returning (h : l.state = .returning) :
    s.closeIdentified tag l = State.notify .cp (noteFor .loanClosed tag .returned [l.patron, l.medium.number])
      ((s.closeLoan tag []).lowerReturnsOpen l.patron) := by
  simp only [State.closeIdentified, h, if_true, State.notifyClosed]

theorem State.closeIdentified_out (h : l.state ≠ .returning) :
    s.closeIdentified tag l = State.notify .cp (noteFor .loanClosed tag .returned [l.patron, l.medium.number])
      (State.notify .fp (note .returnAccepted tag [l.medium.number, 0, 0, 0])
        (State.notify .cp (note .returnAccepted tag [l.patron])
          ((s.closeLoan tag []).lowerLoansOut l.patron))) := by
  simp only [State.closeIdentified, if_neg h, State.notifyAccepted, State.notifyClosed]

theorem SameCopySide.closeIdentified (tag : Nat) (l : Loan) (s : State) : SameCopySide s (s.closeIdentified tag l) := by
  by_cases h : l.state = .returning
  · rw [State.closeIdentified_returning h]
    exact ((closeLoan ..).trans (lowerReturnsOpen ..)).trans (notify ..)
  · rw [State.closeIdentified_out h]
    exact ((((closeLoan ..).trans (lowerLoansOut ..)).trans (notify ..)).trans (notify ..)).trans (notify ..)

theorem State.closeIdentified_setBay {x : Bay} :
    (s.closeIdentified tag l).setBay b x = (s.setBay b x).closeIdentified tag l := by
  by_cases h : l.state = .returning
  · simp only [State.closeIdentified_returning h, State.notify_setBay, State.lowerReturnsOpen_setBay,
      State.closeLoan_setBay]
  · simp only [State.closeIdentified_out h, State.notify_setBay, State.lowerLoansOut_setBay, State.closeLoan_setBay]

@[simp] theorem State.closeIdentified_copyQueue : (s.closeIdentified tag l).copyQueue = s.copyQueue := by
  by_cases h : l.state = .returning
  · rw [State.closeIdentified_returning h, State.notify_copyQueue, State.lowerReturnsOpen_eq, State.closeLoan_eq]
  · rw [State.closeIdentified_out h, State.notify_copyQueue, State.notify_copyQueue, State.notify_copyQueue,
      State.lowerLoansOut_eq, State.closeLoan_eq]

@[simp] theorem State.closeIdentified_units :
    (s.closeIdentified tag l).writeQueue.length = s.writeQueue.length + 1 := by
  by_cases h : l.state = .returning
  · rw [State.closeIdentified_returning h, State.notify_writeQueue, State.lowerReturnsOpen_eq, State.closeLoan_eq]
    simp
  · rw [State.closeIdentified_out h, State.notify_writeQueue, State.notify_writeQueue, State.notify_writeQueue,
      State.lowerLoansOut_eq, State.closeLoan_eq]
    simp

/-- A returned loan is closed and its cartridge's erase sent, in either order. -/
theorem State.closeIdentified_erase {x : Bay} (h : s.lineHeld b = false) :
    ((s.setBay b x).closeIdentified tag l).startErase b = ((s.setBay b x).startErase b).closeIdentified tag l := by
  have side := SameCopySide.closeIdentified tag l (s.setBay b x)
  have free : (s.setBay b x).lineHeld b = false := by simpa using h
  rw [State.startErase_sent ((side.lineHeld b).trans free), side.erasedBay, State.closeIdentified_setBay,
    State.startErase_sent free]

end

/-- Settles O46: the cartridge names a loan that is out or RETURNING, which closes, and the erase is sent. -/
theorem identifiedReturnCloses : Obligations.IdentifiedReturnCloses := by
  intro s b limit record i l hs hc hp large recorded low high hl hm serial room ready free c t
  have enough : ¬ c < 4096 := not_lt.mpr (le_min large (by norm_num))
  have identified : ((s.setBay b ((s.bay b).identifiedAs i)).startErase b) = t := by
    have usable : usableCapacity c = c - 16 - c / 64 := if_neg enough
    rw [State.startErase_setBay free, Bay.identifiedAs, show clampedCapacity i.capacity = c from rfl, usable]
  have closes (hst : l.state = .written ∨ l.state = .mailed ∨ l.state = .overdue ∨ l.state = .returning)
      (unread : l.state ≠ .written) :
      exec (.identityRecordReceived b record) s = .next (lampAfter s (t.closeIdentified i.tagArea l)) := by
    have named : (s.setBay b ((s.bay b).identifiedAs i)).namedLoan i = some (i.tagArea, l) :=
      State.namedLoan_found recorded low high hl hm hst serial
    have taken := takeIdentityRecordReceived_case hs hc hp
    rw [State.classify_named (by rw [State.bay_setBay_self]; exact not_lt.mp enough) named, if_neg unread,
      State.closeIdentified_erase free, identified,
      State.handOver_noneReady (State.noneReady_congr ready (State.closeIdentified_copyQueue (s := t)))] at taken
    refine exec_room rfl taken ?_
    rw [State.closeIdentified_units]
    exact room
  refine ⟨fun returning => ?_, fun out => ?_⟩
  · rw [closes (by tauto) (by simp [returning]), State.closeIdentified_returning returning]
  · rw [closes (by tauto) (by rintro h; simp [h] at out), State.closeIdentified_out (by rintro h; simp [h] at out)]

/-! ### A blank cartridge taken at once (R99, R100, R109) -/

section
variable {s : State} {b : BayNo} {x : Bay} {c : Chan} {j : Job} {l : Loan} {e : PlanEntry} {k : CartTitle}

theorem State.bayless_iff :
    s.bayless j = true ↔ j.bay = none ∧ j.holder = none ∧ ∃ l, s.loan j.tag = some l ∧ l.state = .planned := by
  cases hl : s.loan j.tag <;> simp [State.bayless, hl, and_assoc]

/-- A bay that becomes BLANK is given to the oldest bayless job it fits, and the IDLE channel takes that job at once. -/
theorem State.becomeBlank_taken {rest : List PlanEntry} (hl : s.loan j.tag = some l)
    (found : s.copyQueue.find? (fun k => s.bayless k && decide (s.needOf k ≤ x.usable)) = some j)
    (hi : s.idleChannel = some c) (htitles : l.titles = e :: rest) (hk : s.cart e.title = some k)
    (hs : k.state = .resident ∨ k.state = .retiring) (hr : x.ready = true) (ready : s.noneReady)
    (room : s.writeQueue.length < 127) :
    ((s.setBay b x).becomeBlank b).handOver =
      (s.setBay b { x with state := .blank, tag := none, eraseStarted := false, command := none }).givenTaken j.tag b c l
        e k := by
  have fits := List.find?_some found
  obtain ⟨_, free, m, hm, planned⟩ := State.bayless_iff.mp (Bool.and_eq_true_iff.mp fits).1
  cases hl.symm.trans hm
  let blank := s.setBay b { x with state := .blank, tag := none, eraseStarted := false, command := none }
  have gives : (s.setBay b x).becomeBlank b = blank.giveBay j.tag b := by
    rw [State.becomeBlank_given hl found, State.giveBay_eq (s := blank) hl, State.bay_setBay_self, State.setBay_setBay]
  rw [gives]
  exact State.giveBay_taken (s := blank) (List.mem_of_find?_eq_some found) rfl free hl planned hi htitles hk hs
    (by rw [State.bay_setBay_self]; exact hr) (fun i mem _ => ready i mem) room

end

/-- Settles O45: a stall and a malformed record, and otherwise the rows of the classification in their order. -/
theorem identifyEvents : Obligations.IdentifyEvents := by
  intro s b limit hs hc
  refine ⟨fun unknown => ⟨?stall, fun record hp => ?malformed⟩, fun record i hp room => ?identified⟩
  case stall =>
    exact exec_noUnit rfl ((takeIdentifyStallExpiry_case hs hc).trans (State.rejectBay_unknown .unsuited unknown)) (by simp)
  case malformed =>
    have ended : ((s.endBayCommand b).bay b).identity = none := by simpa [State.endBayCommand] using unknown
    have taken := (takeIdentityRecordReceived_malformed hs hc hp).trans (State.rejectBay_unknown .unsuited ended)
    rw [State.endBayCommand, State.setBay_setBay, State.bay_setBay_self] at taken
    exact exec_noUnit rfl taken (by simp)
  case identified =>
    intro c x
    have taken := takeIdentityRecordReceived_case hs hc hp
    have known : ((s.bay b).identifiedAs i).identity = some i := rfl
    refine ⟨fun small ready => ?small, fun large ready recorded => ?recorded, fun large blank => ?blank⟩
    case small =>
      rw [State.classify_small known small, State.handOver_noneReady (State.noneReady_congr ready (by simp))] at taken
      exact exec_noUnit rfl taken (by simp)
    case recorded =>
      have enough : 4096 ≤ ((s.setBay b ((s.bay b).identifiedAs i)).bay b).clamped := by
        rw [State.bay_setBay_self]; exact large
      refine ⟨fun l low high hl hm hst serial unsent => ?written, fun unnamed free => ?erased⟩
      case written =>
        have named : (s.setBay b ((s.bay b).identifiedAs i)).namedLoan i = some (i.tagArea, l) :=
          State.namedLoan_found recorded low high hl hm (.inl hst) serial
        rw [State.classify_named enough named, if_pos hst, State.bay_setBay_self, State.setBay_setBay,
          State.handOver_noneReady (State.noneReady_congr ready (by simp))] at taken
        refine (exec_room rfl taken ?_).trans ?_
        · simpa [Config.maxUnits] using room
        · rw [Bay.identifiedAs, unsent]
          rfl
      case erased =>
        rw [State.classify_unnamed enough unnamed, if_pos recorded, State.startErase_setBay free,
          State.handOver_noneReady (State.noneReady_congr ready (by simp))] at taken
        exact exec_noUnit rfl taken (by simp)
    case blank =>
      have enough : 4096 ≤ ((s.setBay b ((s.bay b).identifiedAs i)).bay b).clamped := by
        rw [State.bay_setBay_self]; exact large
      rw [State.classify_unnamed enough (State.namedLoan_blank blank), if_neg (by simp [blank])] at taken
      refine ⟨fun worn ready => ?worn, fun fresh ready noJob => ?pool, fun j l fresh busy hl found => ?given,
        fun j l ch e rest k fresh ready idle hl found titles hk hst place => ?taken⟩
      case worn =>
        rw [if_pos (by exact worn), State.rejectBay_setBay .worn known,
          State.handOver_noneReady (State.noneReady_congr ready (by simp))] at taken
        exact exec_noUnit rfl taken (by simp)
      case pool =>
        rw [if_neg (by exact not_le.mpr fresh), State.becomeBlank_pool (x := (s.bay b).identifiedAs i) noJob,
          State.handOver_noneReady (State.noneReady_congr ready (by simp))] at taken
        exact exec_noUnit rfl taken (by simp)
      case given =>
        have none (y : Bay) (m : Loan) (f : Job → Job) :
            (((s.setBay b y).saveLoan j.tag m).updateJob j.tag f).idleChannel = none := busy
        rw [if_neg (by exact not_le.mpr fresh), State.becomeBlank_given (x := (s.bay b).identifiedAs i) hl found,
          State.handOver_noChannel (none ..), State.updateJob_base (s := s) (by simp)] at taken
        exact exec_room rfl taken (by simpa [Config.maxUnits] using room)
      case taken =>
        rw [if_neg (by exact not_le.mpr fresh),
          State.becomeBlank_taken (x := (s.bay b).identifiedAs i) hl found idle titles hk hst rfl ready place] at taken
        rw [State.givenTaken, State.setBay_setBay, State.bay_setBay_self,
          State.updateJob_base (s := s) (by simp)] at taken
        refine exec_room rfl taken ?_
        simp [Config.maxUnits]
        omega

end Sys2Proof.Machine
end

section
/-! SUPPORT. A channel and the bay whose cartridge line it holds: commands sent on the line, the end of a command, the
block boundary, and the store's path asked for (R92, R112, R113, R116, R117, R126). -/

namespace Sys2Proof.Machine

/-- A channel and the bay of its cartridge line, set. -/
def State.setLine (b : BayNo) (c : Chan) (y : Bay) (x : Channel) (s : State) : State := (s.setBay b y).setChan c x

section
variable {s u : State} {b : BayNo} {c : Chan} {y z : Bay} {x w : Channel} {tag : Nat} {e : PlanEntry} {k : CartTitle}

/-! ### What the setting of a line changes and what it leaves -/

theorem State.setLine_self : s.setLine b c (s.bay b) (s.chan c) = s := by
  have bay : s.setBay b (s.bay b) = s := by
    have same : s.bays.set b (s.bay b) = s.bays := Vector.set_getElem_self ..
    rw [State.setBay, same]
  rw [State.setLine, bay]
  cases c <;> rfl

@[simp] theorem State.setLine_chan : (s.setLine b c y x).chan c = x := State.chan_setChan_self ..

@[simp] theorem State.setLine_bay : (s.setLine b c y x).bay b = y := by
  rw [State.setLine, State.bay_setChan, State.bay_setBay_self]

@[simp] theorem State.setLine_setChan : (s.setLine b c y x).setChan c w = s.setLine b c y w := State.setChan_setChan ..

@[simp] theorem State.setLine_setBay : (s.setLine b c y x).setBay b z = s.setLine b c z x := by
  rw [State.setLine, State.setChan_setBay, State.setBay_setBay, State.setLine]

@[simp] theorem State.setLine_setLine : (s.setLine b c y x).setLine b c z w = s.setLine b c z w := by
  rw [State.setLine, State.setLine_setBay, State.setLine_setChan]

@[simp] theorem State.setLine_now : (s.setLine b c y x).now = s.now := by cases c <;> rfl
@[simp] theorem State.setLine_titles : (s.setLine b c y x).titles = s.titles := by cases c <;> rfl
@[simp] theorem State.setLine_loans : (s.setLine b c y x).loans = s.loans := by cases c <;> rfl
@[simp] theorem State.setLine_store : (s.setLine b c y x).store = s.store := by cases c <;> rfl
@[simp] theorem State.setLine_grant : (s.setLine b c y x).grant = s.grant := by cases c <;> rfl
@[simp] theorem State.setLine_searchFrom : (s.setLine b c y x).searchFrom = s.searchFrom := by cases c <;> rfl
@[simp] theorem State.setLine_stagingWriter : (s.setLine b c y x).stagingWriter = s.stagingWriter := by cases c <;> rfl
@[simp] theorem State.setLine_copyQueue : (s.setLine b c y x).copyQueue = s.copyQueue := by cases c <;> rfl
@[simp] theorem State.setLine_writeQueue : (s.setLine b c y x).writeQueue = s.writeQueue := by cases c <;> rfl
@[simp] theorem State.setLine_bays : (s.setLine b c y x).bays = s.bays.set b y := by cases c <;> rfl
@[simp] theorem State.setLine_settings : (s.setLine b c y x).settings = s.settings := by cases c <;> rfl

@[simp] theorem State.setLine_bayStallTime : (s.setLine b c y x).bayStallTime = s.bayStallTime := by cases c <;> rfl
@[simp] theorem State.setLine_eraseTimeLimit : (s.setLine b c y x).eraseTimeLimit = s.eraseTimeLimit := by
  cases c <;> rfl
@[simp] theorem State.setLine_copyRetryLimit : (s.setLine b c y x).copyRetryLimit = s.copyRetryLimit := by
  cases c <;> rfl
@[simp] theorem State.setLine_cart (n : Nat) : (s.setLine b c y x).cart n = s.cart n := State.cart_congr (by simp) n
@[simp] theorem State.setLine_loan (n : Nat) : (s.setLine b c y x).loan n = s.loan n := State.loan_congr (by simp) n
@[simp] theorem State.setLine_title (n : Nat) : (s.setLine b c y x).title n = s.title n := by
  simp only [State.title, State.setLine_titles]
@[simp] theorem State.setLine_job (n : Nat) : (s.setLine b c y x).job n = s.job n := by
  simp only [State.job, State.setLine_copyQueue]

theorem State.setLine_chan_of_ne {d : Chan} (h : d ≠ c) : (s.setLine b c y x).chan d = s.chan d := by
  cases c <;> cases d <;> first | rfl | exact absurd rfl h

theorem State.setLine_noneReady (h : s.noneReady) : (s.setLine b c y x).noneReady :=
  State.noneReady_congr h State.setLine_copyQueue

/-- A command whose event leaves a bay within its state, and a channel: the lamp chain stays as it is. -/
theorem exec_line {i ev : Instr} {g : State → State} (hi : exec i s = .next (commit ev g s))
    (ht : g s = s.setLine b c y x) (hs : y.state = (s.bay b).state) : exec i s = .next (s.setLine b c y x) := by
  refine exec_word hi ht State.setLine_writeQueue ?_
  rw [State.setLine, State.setChan_bays]
  exact lampWord_setBay hs

/-! ### Commands on the line (R116) -/

/-- A command that comes due while the line is ready is sent. -/
theorem State.setLine_dueCommand_sent (hb : x.bay = some b) (hr : y.ready = true) (cmd : CartCommand) (limit : Nat) :
    (s.setLine b c y x).dueCommand c cmd limit =
      s.setLine b c { y with ready := false } { x with activity := .commandSent cmd (s.now + limit) } := by
  simp [State.dueCommand, hb, hr]

/-- A command that comes due while the line is not ready waits for it. -/
theorem State.setLine_dueCommand_waits (hb : x.bay = some b) (hr : y.ready = false) (cmd : CartCommand) (limit : Nat) :
    (s.setLine b c y x).dueCommand c cmd limit =
      s.setLine b c y { x with activity := .commandDue cmd (s.now + limit) } := by
  simp [State.dueCommand, hb, hr]

theorem State.setLine_dueStalled_sent (hb : x.bay = some b) (hr : y.ready = true) (cmd : CartCommand) :
    (s.setLine b c y x).dueStalled c cmd =
      s.setLine b c { y with ready := false } { x with activity := .commandSent cmd (s.now + s.bayStallTime) } := by
  rw [State.dueStalled, State.setLine_dueCommand_sent hb hr, State.setLine_bayStallTime]

theorem State.setLine_showCopy (hb : x.bay = some b) (st : BayState) :
    (s.setLine b c y x).showCopy c st = s.setLine b c { y with state := st } x := by
  simp [State.showCopy, hb]

/-- The start of a RESIDENT or RETIRING title on a ready line (R112, R115). -/
theorem State.setLine_titleStart (ht : x.tag = some tag) (he : x.entry = some e) (hk : s.cart e.title = some k)
    (hs : k.state = .resident ∨ k.state = .retiring) (hb : x.bay = some b) (hr : y.ready = true) :
    (s.setLine b c y x).titleStart c =
      s.setLine b c { y with ready := false }
        { x with
          state := .header, set1 := (runSets k).1, set2 := (runSets k).2, second := false, sum := .zero
          block := e.offset
          activity := .commandSent (.writeBlock e.offset (headerBlock x.index e.title tag k))
            (s.now + s.bayStallTime) } := by
  rw [State.titleStart_sent (tag := tag) (e := e) (k := k) (b := b) (by simpa using ht) (by simpa using he)
    (by simpa using hk) hs (by simpa using hb) (by simpa using hr)]
  simp

/-- The start of any other title fails the loan (R115). -/
theorem State.setLine_titleStart_fails (ht : x.tag = some tag) (he : x.entry = some e) (hk : s.cart e.title = some k)
    (hr : k.state ≠ .resident) (hs : k.state ≠ .retiring) :
    (s.setLine b c y x).titleStart c = (s.setLine b c y x).channelFails c tag .damaged e.title := by
  simp only [State.titleStart, State.setLine_chan, ht, he, State.setLine_cart, hk, hr, hs, or_self, if_false]

/-- The read-back of the title at an index begins on a ready line (R120). -/
theorem State.setLine_verifyTitle {index : Nat} (he : ({ x with index := index } : Channel).entry = some e)
    (hb : x.bay = some b) (hr : y.ready = true) :
    (s.setLine b c y x).verifyTitle c index =
      s.setLine b c { y with ready := false }
        { x with
          state := .verify, index := index, sum := .zero, block := e.offset + 1
          activity := .commandSent (.readBlock (e.offset + 1)) (s.now + s.bayStallTime) } := by
  have entry : Channel.entry { x with state := .verify, index := index, sum := .zero } = some e := he
  simp only [State.verifyTitle, State.setLine_chan, entry, State.setLine_setChan]
  exact State.setLine_dueStalled_sent
    (x := { x with state := .verify, index := index, sum := .zero, block := e.offset + 1 }) hb hr _

/-! ### The end of a command and the block boundary (R116, R126) -/

/-- A bay whose ready line has risen. -/
def Bay.risen (y : Bay) : Bay := { y with ready := true }

/-- A channel whose command has ended. -/
def Channel.commandEnded (x : Channel) : Channel := { x with activity := .none }

/-- Ready rises at a command's end. -/
theorem State.readyRises_eq (hb : (s.chan c).bay = some b) :
    s.readyRises c = s.setLine b c (s.bay b).risen (s.chan c).commandEnded := by
  simp only [State.readyRises, hb]
  rw [State.setChan_setBay, State.bay_setChan]
  simp only [State.setLine, Bay.risen, Channel.commandEnded, hb]

/-- A channel not told to stop goes on; with no job ready, nothing else comes of its boundary. -/
theorem State.boundaryOr_goesOn {go : State → State} (hs : (s.chan c).stopping = false) (hg : go s = u)
    (hn : u.noneReady) : s.boundaryOr c go = u := by
  simp only [State.boundaryOr, hs, Bool.false_eq_true, if_false, hg, State.handOver_noneReady hn]

/-- A channel told to stop releases its job; with no job ready, nothing else comes of its boundary. -/
theorem State.boundaryOr_stops {go : State → State} (hs : (s.chan c).stopping = true) (hg : s.release c = u)
    (hn : u.noneReady) : s.boundaryOr c go = u := by
  simp only [State.boundaryOr, hs, if_true, hg, State.handOver_noneReady hn]

/-- A command's end on the line of a channel that goes on. -/
theorem State.commandEnd_goesOn {go : State → State} (hb : (s.chan c).bay = some b)
    (hs : (s.chan c).stopping = false)
    (hg : go (s.setLine b c (s.bay b).risen (s.chan c).commandEnded) = u)
    (hn : u.noneReady) : (s.readyRises c).boundaryOr c go = u := by
  rw [State.readyRises_eq hb]
  exact State.boundaryOr_goesOn (by rw [State.setLine_chan]; exact hs) hg hn

/-! ### The store's path asked for (R12, R117) -/

/-- A channel that asks for a store block on a busy path waits. -/
theorem State.setLine_requestBlock_waits (hg : s.grant ≠ none) :
    (s.setLine b c y x).requestBlock c = s.setLine b c y { x with activity := .storeRequest } := by
  simp only [State.requestBlock, State.setLine_chan, State.setLine_setChan]
  exact State.arbitrate_busy (by simpa using hg)

theorem Chan.requester_ne (c : Chan) : Chan.requester c ≠ .staging := by cases c <;> simp [Chan.requester]

/-- A requester is the staging writer or a channel. -/
theorem Requester.cases (r : Requester) : r = .staging ∨ ∃ d : Chan, r = Chan.requester d := by
  cases r
  · exact .inl rfl
  · exact .inr ⟨.a, rfl⟩
  · exact .inr ⟨.b, rfl⟩

theorem State.requesting_chan (d : Chan) : s.requesting (Chan.requester d) = ((s.chan d).activity == .storeRequest) := by
  cases d <;> rfl

/-- On a free path the one requester of the ring that asks is the next. -/
theorem State.nextRequester_only {r : Requester} (hr : s.requesting r = true)
    (others : ∀ q, q ≠ r → s.requesting q = false) : s.nextRequester = some r := by
  have found : ∀ q, s.requesting q = true ↔ q = r := fun q =>
    ⟨fun h => by_contra fun hq => Bool.noConfusion ((others q hq).symm.trans h), fun h => h ▸ hr⟩
  unfold State.nextRequester
  generalize s.searchFrom = from'
  have first (q : Requester) : s.requesting q = decide (q = r) := by
    rw [Bool.eq_iff_iff, found, decide_eq_true_iff]
  simp only [List.find?_cons, first]
  cases from' <;> cases r <;> rfl

theorem State.setLine_give :
    (s.setLine b c y x).give (Chan.requester c) =
      { s.setLine b c y { x with activity := .storeRead false } with
        grant := some (Chan.requester c), searchFrom := (Chan.requester c).after } := by
  cases c <;> rfl

/-- A channel that asks on a free path, the search standing at it or no other asking, is granted at once. -/
theorem State.setLine_requestBlock_granted (hg : s.grant = none)
    (alone : s.searchFrom = Chan.requester c ∨
      ((∀ w, s.stagingWriter = some w → w.transferred = true) ∧ ∀ d, d ≠ c → (s.chan d).activity ≠ .storeRequest)) :
    (s.setLine b c y x).requestBlock c =
      { s.setLine b c y { x with activity := .storeRead false } with
        grant := some (Chan.requester c), searchFrom := (Chan.requester c).after } := by
  have asks : (s.setLine b c y { x with activity := .storeRequest }).requesting (Chan.requester c) = true := by
    rw [State.requesting_chan, State.setLine_chan]
    rfl
  have next : (s.setLine b c y { x with activity := .storeRequest }).nextRequester = some (Chan.requester c) := by
    rcases alone with here | ⟨writer, others⟩
    · exact State.nextRequester_first (front := []) (by rw [State.setLine_searchFrom, here]; rfl) (by simp) asks
    · refine State.nextRequester_only asks fun q hq => ?_
      obtain rfl | ⟨d, rfl⟩ := Requester.cases q
      · cases hw : s.stagingWriter with
        | none => simp [State.requesting, hw]
        | some w => simp [State.requesting, hw, writer w hw]
      · have ne : d ≠ c := fun h => hq (by rw [h])
        rw [State.requesting_chan, State.setLine_chan_of_ne ne]
        exact beq_false_of_ne (others d ne)
  simp only [State.requestBlock, State.setLine_chan, State.setLine_setChan]
  rw [State.arbitrate_chan (by simpa using hg) next (Chan.requester_ne c), State.setLine_give]

/-! ### Failing a loan whose channel holds the line (R57, R115, R118) -/

theorem State.setLine_unpin (n : Nat) : (s.setLine b c y x).unpin n = (s.unpin n).setLine b c y x := by
  unfold State.unpin
  rw [State.setLine_title]
  split
  next withdrawing k _ =>
    have put (t : Title) : (s.setLine b c y x).putTitle n t = (s.putTitle n t).setLine b c y x := by cases c <;> rfl
    simp only [put]
    split
    · cases k.state <;> simp only [State.settleUnpinned] <;> cases c <;> rfl
    · rfl
  next => rfl

theorem State.setLine_unpinAll (es : List PlanEntry) :
    (s.setLine b c y x).unpinAll es = (s.unpinAll es).setLine b c y x := by
  induction es generalizing s with
  | nil => rfl
  | cons e es ih =>
    simp only [State.unpinAll, List.foldl_cons, State.setLine_unpin] at ih ⊢
    exact ih

theorem State.setLine_leaveQueue : (s.setLine b c y x).leaveQueue tag = (s.leaveQueue tag).setLine b c y x := by
  rw [State.leaveQueue_eq, State.leaveQueue_eq]
  cases c <;> rfl

theorem State.setLine_failed {l : Loan} : (s.setLine b c y x).failed tag l = (s.failed tag l).setLine b c y x := by
  have back : (s.setLine b c y x).handedBack tag l = (s.handedBack tag l).setLine b c y x := by
    simp only [State.handedBack, State.closeLoan_eq]
    cases c <;> rfl
  simp only [State.failed, back, State.setLine_leaveQueue, State.setLine_unpinAll]

theorem State.setLine_notify (p : Port) (n : Notice) :
    (s.setLine b c y x).notify p n = (s.notify p n).setLine b c y x := by
  cases c <;> cases p <;> rfl

theorem State.failed_job {l : Loan} : (s.failed tag l).job tag = none := by
  have same : (s.failed tag l).job tag = ((s.handedBack tag l).leaveQueue tag).job tag := by
    simp only [State.failed, State.job, State.unpinAll_copyQueue]
  rw [same, State.leaveQueue_job]

/-- A PLANNED or COPYING cartridge loan with a bay fails, its bay erased (R57). -/
theorem State.failLoan_bay {l : Loan} {why : Reason} {title : Nat} (hl : s.loan tag = some l) (hm : l.medium = .cartridge)
    (hst : l.state = .planned ∨ l.state = .copying) (hb : l.bay = some b) :
    s.failLoan tag why title =
      ((s.failed tag l).startErase b).notifyBoth (noteFor .copyFailed tag why [l.patron, title, b.val]) := by
  have live : l.medium = .cartridge ∧ (l.state = .planned ∨ l.state = .copying) := ⟨hm, hst⟩
  simp only [State.failLoan, hl, live, hb]
  rfl

/-- A failed loan's notices to both ports, its bay erased and its channel cleared (R57, R118). -/
def State.failedErased (tag : Nat) (l : Loan) (why : Reason) (title : Nat) (b : BayNo) (c : Chan) (y : Bay) (s : State) :
    State :=
  ((s.failed tag l).notifyBoth (noteFor .copyFailed tag why [l.patron, title, b.val])).setLine b c
    { y with
      state := .erasing, tag := none, eraseStarted := true, ready := false, ejectPulse := none
      command := some (.erase, s.now + s.eraseTimeLimit) } .cleared

/-- A channel that fails its loan: the erase waits for the line until the channel has released it. -/
theorem State.setLine_channelFails {l : Loan} {why : Reason} {title : Nat} (hl : s.loan tag = some l)
    (hm : l.medium = .cartridge) (hst : l.state = .copying) (hb : l.bay = some b) (hx : x.bay = some b)
    (ht : x.tag = some tag) (hi : x.state ≠ .idle) (others : ∀ d, d ≠ c → (s.chan d).bay ≠ some b) :
    (s.setLine b c y x).channelFails c tag why title = s.failedErased tag l why title b c y := by
  have side : SameCopySide (s.setLine b c y x) ((s.setLine b c y x).failed tag l) := State.failed_side
  have held : ((s.setLine b c y x).failed tag l).lineHeld b = true := by
    rw [side.lineHeld]
    exact State.lineHeld_of_chan (c := c) (by simpa using hi) (by simpa using hx)
  have base : SameCopySide s ((s.failed tag l).notifyBoth (noteFor .copyFailed tag why [l.patron, title, b.val])) :=
    (State.failed_side.trans (SameCopySide.notify ..)).trans (SameCopySide.notify ..)
  have gone : ((s.failed tag l).notifyBoth (noteFor .copyFailed tag why [l.patron, title, b.val])).job tag = none := by
    rw [← State.failed_job (s := s) (tag := tag) (l := l)]
    simp [State.job, State.notifyBoth]
  have loan : (s.setLine b c y x).loan tag = some l := by rwa [State.setLine_loan]
  rw [State.channelFails, State.failLoan_bay loan hm (.inr hst) hb, State.startErase_waits held, side.erasingBay,
    State.setLine_failed, State.setLine_setBay, State.notifyBoth, State.setLine_notify, State.setLine_notify,
    ← State.notifyBoth]
  rw [State.release_gone (b := b) (tag := tag) (by simpa using hx) (by simpa using ht) (by simpa using gone),
    State.lineFreed_erase _ (by simp [State.erasingBay]) (by simp [State.erasingBay])]
  · have limit : State.eraseTimeLimit ((s.failed tag l).notifyBoth
        (noteFor .copyFailed tag why [l.patron, title, b.val])) = s.eraseTimeLimit := by
      simp only [State.eraseTimeLimit, base.setting]
    simp only [State.setLine_setBay, State.setLine_setChan, State.setLine_bay, State.setLine_now, base.now,
      State.setLine_eraseTimeLimit, limit]
    simp only [State.erasingBay, State.setLine_bay]
    rfl
  · intro d hd
    rw [State.setLine_chan_of_ne hd, base.chan]
    exact others d hd

end

end Sys2Proof.Machine
end

section
/-! CERTIFICATES. The ends of a copy channel's writes (R15, R57, R113, R115, R117 to R122). -/

namespace Sys2Proof.Machine

section
variable {s u : State} {b : BayNo} {c : Chan} {y : Bay} {x : Channel} {tag n limit : Nat} {bytes : List Byte}
  {e : PlanEntry} {k : CartTitle} {l : Loan} {w : Bool}

/-- A channel once a block of the image has been written (R117). -/
def Channel.blockWritten (x : Channel) : Channel := { x with block := x.block + 1, activity := .none }

/-! ### A title's store sum (R15, R118) -/

theorem State.setLine_compareStoreSum_agrees (ht : x.tag = some tag) (he : x.entry = some e)
    (hk : s.cart e.title = some k) (agree : k.declared = x.sum) :
    (s.setLine b c y x).compareStoreSum c = (s.setLine b c y x).titleDone c := by
  simp only [State.compareStoreSum, State.setLine_chan, ht, he, State.setLine_cart, hk, Option.map_some, agree, if_true]

theorem State.setLine_compareStoreSum_differs (ht : x.tag = some tag) (he : x.entry = some e)
    (hk : s.cart e.title = some k) (differs : k.declared ≠ x.sum) :
    (s.setLine b c y x).compareStoreSum c =
      ((s.setLine b c y x).damageReport e.title x.sum).channelFails c tag .sum e.title := by
  simp only [State.compareStoreSum, State.setLine_chan, ht, he, State.setLine_cart, hk, Option.map_some,
    Option.some.injEq, differs, if_false]

/-- The index region's blocks depend on the channel's tag and title list alone (R119). -/
theorem State.setLine_indexRegionBlock (ht : x.tag = (s.chan c).tag) (hl : x.titles = (s.chan c).titles) :
    (s.setLine b c y x).indexRegionBlock c n = s.indexRegionBlock c n := by
  have loan : (s.setLine b c y x).loan = s.loan := funext State.setLine_loan
  simp only [State.indexRegionBlock, State.setLine_chan, ht, hl, loan, State.setLine_cart]

theorem State.setLine_writeIndexBlock (hx : x.bay = some b) (hr : y.ready = true) :
    (s.setLine b c y x).writeIndexBlock c n =
      s.setLine b c { y with ready := false }
        { x with
          block := n
          activity := .commandSent (.writeBlock n
            ((s.setLine b c y { x with block := n }).indexRegionBlock c n)) (s.now + s.bayStallTime) } := by
  simp only [State.writeIndexBlock, State.setLine_chan, State.setLine_setChan]
  exact State.setLine_dueStalled_sent (x := { x with block := n }) hx hr _

/-- After the last title INDEX begins (R118, R119). -/
theorem State.setLine_titleDone_last (hi : x.titles.length ≤ x.index) (hx : x.bay = some b) (hr : y.ready = true)
    (ht : x.tag = (s.chan c).tag) (hl : x.titles = (s.chan c).titles) :
    (s.setLine b c y x).titleDone c =
      s.setLine b c { y with ready := false }
        { x with
          state := .index, index := 0, block := 0
          activity := .commandSent (.writeBlock 0 (s.indexRegionBlock c 0)) (s.now + s.bayStallTime) } := by
  simp only [State.titleDone, State.setLine_chan, if_neg hi.not_gt, State.setLine_setChan]
  rw [State.setLine_writeIndexBlock (x := { x with state := .index, index := 0 }) hx hr,
    State.setLine_indexRegionBlock (x := { x with state := .index, index := 0, block := 0 }) ht hl]

/-- A channel at its next title. -/
def Channel.nextTitle (x : Channel) : Channel := { x with index := x.index + 1 }

theorem Channel.entry_nextTitle (he : x.titles[x.index]? = some e) : x.nextTitle.entry = some e := by
  simpa [Channel.entry, Channel.nextTitle] using he

/-- After another title the next starts (R118). -/
theorem State.setLine_titleDone_next (he : x.titles[x.index]? = some e) :
    (s.setLine b c y x).titleDone c = (s.setLine b c y x.nextTitle).titleStart c := by
  have more : x.index < x.titles.length := (List.getElem?_eq_some_iff.mp he).1
  simp only [State.titleDone, State.setLine_chan, if_pos more, State.setLine_setChan]
  rfl

/-! ### Store damage found at a pinned title (R15) -/

section
variable {t : CartTitle} {found : ImageSum} (hn : s.title n = some { withdrawing := w, body := .cart t }) (pinned : t.pins ≠ 0)
include hn pinned

theorem State.setLine_damageReport_resident (hs : t.state = .resident) :
    (s.setLine b c y x).damageReport n found =
      ((s.saveTitle n { withdrawing := w, body := .cart { t with state := .damaged } }).notify .cp
        (note .titleDamaged n [t.declared.number, found.number])).setLine b c y x := by
  simp only [State.damageReport, State.setLine_title, hn, hs, if_neg pinned, State.notifyDamaged]
  cases c <;> rfl

theorem State.setLine_damageReport_retiring (hs : t.state = .retiring) :
    (s.setLine b c y x).damageReport n found =
      (s.notify .cp (note .titleDamaged n [t.declared.number, found.number])).setLine b c y x := by
  simp only [State.damageReport, State.setLine_title, hn, hs, if_neg pinned, State.notifyDamaged]
  cases c <;> rfl

theorem State.setLine_damageReport_damaged (hs : t.state = .damaged) :
    (s.setLine b c y x).damageReport n found = s.setLine b c y x := by
  simp only [State.damageReport, State.setLine_title, hn, hs, if_neg pinned]

end

/-! ### The ends of the writes -/

section
variable (hb : (s.chan c).bay = some b) (hs : (s.chan c).stopping = false) (hn : u.noneReady)
include hb hs hn

theorem takeHeaderWriteEnd_case (hx : (s.chan c).state = .header)
    (ha : (s.chan c).activity = .commandSent (.writeBlock n bytes) limit)
    (hg : (s.setLine b c (s.bay b).risen
      { (s.chan c).blockWritten with state := .image }).requestBlock c = u) :
    takeHeaderWriteEnd c s = u := by
  simp only [takeHeaderWriteEnd, hx, ha]
  refine State.commandEnd_goesOn hb hs ?_ hn
  rw [State.setLine_chan, State.setLine_setChan]
  exact hg

theorem takeImageBlockWriteEnd_more (hx : (s.chan c).state = .image)
    (ha : (s.chan c).activity = .commandSent (.writeBlock n bytes) limit) (he : (s.chan c).imageEnded = false)
    (hg : (s.setLine b c (s.bay b).risen
      { (s.chan c).blockWritten with state := .image }).requestBlock c = u) :
    takeImageBlockWriteEnd c s = u := by
  simp only [takeImageBlockWriteEnd, hx, ha]
  refine State.commandEnd_goesOn hb hs ?_ hn
  simp only [State.setLine_chan, State.setLine_setChan]
  rw [← hx] at hg
  exact (if_neg (Bool.eq_false_iff.mp he)).trans hg

theorem takeImageBlockWriteEnd_ended (hx : (s.chan c).state = .image)
    (ha : (s.chan c).activity = .commandSent (.writeBlock n bytes) limit) (he : (s.chan c).imageEnded = true)
    (hg : (s.setLine b c (s.bay b).risen
      (s.chan c).blockWritten).compareStoreSum c = u) :
    takeImageBlockWriteEnd c s = u := by
  simp only [takeImageBlockWriteEnd, hx, ha]
  refine State.commandEnd_goesOn hb hs ?_ hn
  simp only [State.setLine_chan, State.setLine_setChan]
  exact (if_pos he).trans hg

theorem takeIndexBlockWriteEnd_more (hx : (s.chan c).state = .index)
    (ha : (s.chan c).activity = .commandSent (.writeBlock n bytes) limit) (more : (s.chan c).block + 1 < 16)
    (hg : (s.setLine b c (s.bay b).risen (s.chan c).commandEnded).writeIndexBlock c
      ((s.chan c).block + 1) = u) :
    takeIndexBlockWriteEnd c s = u := by
  simp only [takeIndexBlockWriteEnd, hx, ha]
  refine State.commandEnd_goesOn hb hs ?_ hn
  simp only [State.setLine_chan]
  exact (if_pos more).trans hg

theorem takeIndexBlockWriteEnd_last (hx : (s.chan c).state = .index)
    (ha : (s.chan c).activity = .commandSent (.writeBlock n bytes) limit) (last : (s.chan c).block = 15)
    (hg : State.verifyTitle c 1 (s.setLine b c { s.bay b with state := .verifying, ready := true }
      (s.chan c).commandEnded) = u) :
    takeIndexBlockWriteEnd c s = u := by
  simp only [takeIndexBlockWriteEnd, hx, ha]
  refine State.commandEnd_goesOn hb hs ?_ hn
  have sixteen : ¬ (s.chan c).block + 1 < Config.indexBlocks := by simp [last, Config.indexBlocks]
  simp only [State.setLine_chan]
  refine (if_neg sixteen).trans ?_
  rw [State.setLine_showCopy (x := (s.chan c).commandEnded) hb]
  exact hg

theorem takeWriteTagEnd_case (hx : (s.chan c).state = .tagging)
    (ha : (s.chan c).activity = .commandSent (.writeTag tag) limit)
    (hg : (s.setLine b c (s.bay b).risen
      { (s.chan c).commandEnded with state := .draining }).dueStalled c .drain = u) :
    takeWriteTagEnd c s = u := by
  simp only [takeWriteTagEnd, hx, ha]
  refine State.commandEnd_goesOn hb hs ?_ hn
  rw [State.setLine_chan, State.setLine_setChan]
  exact hg

end

/-! ### A failed copy's whole next state -/

theorem State.failedErased_eq {why : Reason} {title : Nat} :
    s.failedErased tag l why title b c y =
      State.setChan c .cleared
        (State.notify .fp (noteFor .copyFailed tag why [l.patron, title, b.val])
          (State.notify .cp (noteFor .copyFailed tag why [l.patron, title, b.val])
            ((s.failed tag l).setBay b
              { y with
                state := .erasing, tag := none, eraseStarted := true, ready := false, ejectPulse := none
                command := some (.erase, s.now + s.eraseTimeLimit) }))) := by
  simp only [State.failedErased, State.setLine, State.notifyBoth, State.notify_setBay]

theorem State.failedErased_units {why : Reason} {title : Nat} :
    (s.failedErased tag l why title b c y).writeQueue.length ≤ s.writeQueue.length + l.titles.length + 1 := by
  simp only [State.failedErased, State.setLine_writeQueue, State.notifyBoth, State.notify_writeQueue]
  exact State.failed_units

theorem State.failedErased_noneReady {why : Reason} {title : Nat} (h : s.noneReady) :
    (s.failedErased tag l why title b c y).noneReady := by
  intro j hj
  simp only [State.failedErased, State.setLine_copyQueue, State.notifyBoth, State.notify_copyQueue, State.failed,
    State.unpinAll_copyQueue, State.leaveQueue_copyQueue, List.mem_filter] at hj
  have same : (s.handedBack tag l).copyQueue = s.copyQueue := by simp [State.handedBack]
  exact h j (same ▸ hj.1)

end

/-- Settles O49: each write's end goes on by the channel's state; a sum that differs, or a next title that is not there
to be copied, fails the loan. -/
theorem channelWriteEnds : Obligations.ChannelWriteEnds := by
  intro s c b limit hs hb ready x
  refine ⟨fun n bytes ha => ⟨fun hx => ⟨fun busy => ?waits, fun free alone => ?granted⟩, ?last, ?next, ?fails, ?index,
    ?verify⟩, fun tag hx ha => ?tagEnd⟩
  case waits =>
    have asked := State.setLine_requestBlock_waits (s := s) (b := b) (c := c) (y := (s.bay b).risen)
      (x := { (s.chan c).blockWritten with state := .image }) busy
    have none := State.setLine_noneReady (b := b) (c := c) (y := (s.bay b).risen)
      (x := { s.chan c with state := .image, block := (s.chan c).block + 1, activity := .storeRequest }) ready
    rcases hx with hx | ⟨hx, more⟩
    · rw [if_pos hx]
      exact exec_line rfl (takeHeaderWriteEnd_case hb hs none hx ha asked) rfl
    · rw [if_neg (by simp [x, hx])]
      exact exec_line rfl (takeImageBlockWriteEnd_more hb hs none hx ha more asked) rfl
  case granted =>
    have asked := State.setLine_requestBlock_granted (b := b) (y := (s.bay b).risen)
      (x := { (s.chan c).blockWritten with state := .image }) free alone
    have none := State.setLine_noneReady (b := b) (c := c) (y := (s.bay b).risen)
      (x := { s.chan c with state := .image, block := (s.chan c).block + 1, activity := .storeRead false }) ready
    have word : lampWord (State.setLine b c (s.bay b).risen
        { s.chan c with state := .image, block := (s.chan c).block + 1, activity := .storeRead false } s).bays =
        lampWord s.bays := by
      rw [State.setLine_bays]
      exact lampWord_setBay rfl
    rcases hx with hx | ⟨hx, more⟩
    · rw [if_pos hx]
      exact exec_word rfl (takeHeaderWriteEnd_case hb hs none hx ha asked) State.setLine_writeQueue word
    · rw [if_neg (by simp [x, hx])]
      exact exec_word rfl (takeImageBlockWriteEnd_more hb hs none hx ha more asked) State.setLine_writeQueue word
  case last =>
    intro tag e k hx ended ht he hk agree last
    have compared := State.setLine_compareStoreSum_agrees (s := s) (b := b) (c := c) (y := (s.bay b).risen)
      (x := (s.chan c).blockWritten) ht he hk agree
    rw [State.setLine_titleDone_last (x := (s.chan c).blockWritten) last hb rfl rfl rfl] at compared
    exact exec_line rfl
      (takeImageBlockWriteEnd_ended hb hs (State.setLine_noneReady ready) hx ha ended compared) rfl
  case next =>
    intro tag e k e2 k2 hx ended ht he hk agree next hk2 present
    have compared := State.setLine_compareStoreSum_agrees (s := s) (b := b) (c := c) (y := (s.bay b).risen)
      (x := (s.chan c).blockWritten) ht he hk agree
    rw [State.setLine_titleDone_next (x := (s.chan c).blockWritten) next,
      State.setLine_titleStart (y := (s.bay b).risen) (x := (s.chan c).blockWritten.nextTitle) ht
        (Channel.entry_nextTitle next) hk2 present hb rfl] at compared
    exact exec_line rfl
      (takeImageBlockWriteEnd_ended hb hs (State.setLine_noneReady ready) hx ha ended compared) rfl
  case fails =>
    intro tag e w k l hx ended ht he htitle hl hm hst hlb others room failed
    have hk : s.cart e.title = some k := by simp [State.cart, htitle]
    have copying : (s.chan c).state ≠ .idle := by simp [show (s.chan c).state = .image from hx]
    have compared (y : Bay) := State.setLine_compareStoreSum_agrees (s := s) (b := b) (c := c) (y := y)
      (x := (s.chan c).blockWritten) ht he hk
    have damage (y : Bay) := State.setLine_compareStoreSum_differs (s := s) (b := b) (c := c) (y := y)
      (x := (s.chan c).blockWritten) ht he hk
    have fails {t : State} {why : Reason} {title : Nat}
        (hu : (s.setLine b c (s.bay b).risen
          (s.chan c).blockWritten).compareStoreSum c =
            t.failedErased tag l why title b c (s.bay b).risen)
        (hq : t.copyQueue = s.copyQueue) (hw : t.writeQueue.length ≤ s.writeQueue.length + 1) (hnow : t.now = s.now)
        (hset : t.settings = s.settings) : exec (.imageBlockWriteEnd c) s = failed t why title := by
      have limit' : t.eraseTimeLimit = s.eraseTimeLimit := by simp only [State.eraseTimeLimit, State.setting, hset]
      have taken := takeImageBlockWriteEnd_ended hb hs (State.failedErased_noneReady (State.noneReady_congr ready hq)) hx
        ha ended hu
      have units := State.failedErased_units (s := t) (tag := tag) (l := l) (why := why) (title := title) (b := b) (c := c)
        (y := (s.bay b).risen)
      refine (exec_room rfl taken (units.trans ?_)).trans ?_
      · simp only [Config.maxUnits]
        omega
      · rw [State.failedErased_eq, hnow, limit']
        rfl
    refine ⟨fun differs resident pinned => ?_, fun differs retiring pinned => ?_, fun differs damaged pinned => ?_,
      fun e2 k2 agree next hk2 absent staging => ?_⟩
    · have compared := damage (s.bay b).risen differs
      rw [State.setLine_damageReport_resident htitle pinned resident,
        State.setLine_channelFails (x := (s.chan c).blockWritten) (by exact hl) hm hst hlb hb ht copying (by exact others)] at compared
      exact fails compared rfl (by simp [State.saveTitle]) rfl rfl
    · have compared := damage (s.bay b).risen differs
      rw [State.setLine_damageReport_retiring htitle pinned retiring,
        State.setLine_channelFails (x := (s.chan c).blockWritten) (by exact hl) hm hst hlb hb ht copying (by exact others)] at compared
      exact fails compared rfl (by simp) rfl rfl
    · have compared := damage (s.bay b).risen differs
      rw [State.setLine_damageReport_damaged htitle pinned damaged,
        State.setLine_channelFails (x := (s.chan c).blockWritten) hl hm hst hlb hb ht copying others] at compared
      exact fails compared rfl (by simp) rfl rfl
    · have compared := compared (s.bay b).risen agree
      rw [State.setLine_titleDone_next (x := (s.chan c).blockWritten) next,
        State.setLine_titleStart_fails (x := (s.chan c).blockWritten.nextTitle) ht (Channel.entry_nextTitle next) hk2 absent staging,
        State.setLine_channelFails (x := (s.chan c).blockWritten.nextTitle) hl hm hst hlb hb ht copying others] at compared
      exact fails compared rfl (by simp) rfl rfl
  case index =>
    intro hx more
    have written := State.setLine_writeIndexBlock (s := s) (c := c) (y := (s.bay b).risen)
      (x := (s.chan c).commandEnded) (n := (s.chan c).block + 1) hb rfl
    exact exec_line rfl
      (takeIndexBlockWriteEnd_more hb hs (State.setLine_noneReady ready) hx ha more written) rfl
  case verify =>
    intro e rest hx last titles
    have first : Channel.entry { (s.chan c).commandEnded with index := 1 } = some e := by
      simp [Channel.entry, Channel.commandEnded, show (s.chan c).titles = e :: rest from titles]
    have begun := State.setLine_verifyTitle (s := s) (c := c) (y := { s.bay b with state := .verifying, ready := true })
      (x := (s.chan c).commandEnded) first hb rfl
    exact exec_noUnit rfl
      (takeIndexBlockWriteEnd_last hb hs (State.setLine_noneReady ready) hx ha last begun) State.setLine_writeQueue
  case tagEnd =>
    exact exec_line rfl (takeWriteTagEnd_case hb hs (State.setLine_noneReady ready) hx ha
      (State.setLine_dueStalled_sent (y := (s.bay b).risen)
        (x := { (s.chan c).commandEnded with state := .draining }) hb rfl _)) rfl

end Sys2Proof.Machine
end

section
/-! CERTIFICATES. A store block brought to a copy channel, and a block read back (R112, R113, R117, R120). -/

namespace Sys2Proof.Machine

section
variable {s u : State} {b : BayNo} {c : Chan} {y : Bay} {x : Channel} {tag n limit : Nat} {bytes : List Byte}
  {e : PlanEntry} {k : CartTitle} {ended : Bool}

/-- A line whose bay stays as it is. -/
theorem State.setLine_sameBay : s.setLine b c (s.bay b) x = s.setChan c x := by
  have same := State.setLine_setChan (s := s) (b := b) (c := c) (y := s.bay b) (x := s.chan c) (w := x)
  rw [← same, State.setLine_self]

/-! ### A store block read (R113, R117) -/

/-- A channel once the block read has been summed and the run set has advanced (R113, R117). -/
def Channel.blockRead (bytes : List Byte) (x : Channel) : Channel :=
  { x.advanceSet with sum := x.sum.addBytes bytes, activity := .none }

/-- What a channel is busy with has no part in it. -/
theorem Channel.blockRead_activity (a : Activity) :
    ({ x with activity := a } : Channel).blockRead bytes = x.blockRead bytes := by
  unfold Channel.blockRead Channel.advanceSet
  cases x.second <;> rfl

theorem Channel.advanceSet_bay : x.advanceSet.bay = x.bay := by
  unfold Channel.advanceSet
  split <;> rfl

theorem State.setLine_copyBlock_sent (hx : x.bay = some b) (hr : y.ready = true) :
    (s.setLine b c y x).copyBlock c bytes =
      s.setLine b c { y with ready := false }
        { x.blockRead bytes with activity := .commandSent (.writeBlock x.block bytes) (s.now + s.bayStallTime) } := by
  simp only [State.copyBlock, State.setLine_chan, State.setLine_setChan]
  exact State.setLine_dueStalled_sent (x := x.blockRead bytes) (Channel.advanceSet_bay.trans hx) hr _

theorem State.setLine_copyBlock_waits (hx : x.bay = some b) (hr : y.ready = false) :
    (s.setLine b c y x).copyBlock c bytes =
      s.setLine b c y
        { x.blockRead bytes with activity := .commandDue (.writeBlock x.block bytes) (s.now + s.bayStallTime) } := by
  simp only [State.copyBlock, State.setLine_chan, State.setLine_setChan, State.dueStalled]
  refine (State.setLine_dueCommand_waits (x := x.blockRead bytes) (Channel.advanceSet_bay.trans hx) hr _ _).trans ?_
  rw [State.setLine_bayStallTime]

/-- The transfer of a channel's read has ended before, or it ends first (R12, log entry 16). -/
theorem State.endTransferOf_other {r : Requester} (h : s.grant ≠ some r) : s.endTransferOf r = s := if_neg h

/-- The transfer ends with no other requester asking: the path is free. -/
theorem State.endTransferOf_frees (hg : s.grant = some (Chan.requester c)) (hw : s.stagingWriter = none)
    (others : ∀ d, d ≠ c → (s.chan d).activity ≠ .storeRequest) :
    s.endTransferOf (Chan.requester c) =
      State.setChan c { s.chan c with activity := .storeRead true } { s with grant := none } := by
  have ends : s.TransferEnds (Chan.requester c)
      { s.setChan c { s.chan c with activity := .storeRead true } with grant := none } := .inr ⟨c, rfl, rfl⟩
  have idle (q : Requester) : State.requesting
      { s.setChan c { s.chan c with activity := .storeRead true } with grant := none } q = false := by
    refine ends.notRequesting ?_
    rintro ⟨ne, asks⟩
    obtain rfl | ⟨d, rfl⟩ := Requester.cases q
    · obtain ⟨w, writer, _⟩ := asks
      rw [hw] at writer
      cases writer
    · refine others d (fun h => ne (by rw [h])) ?_
      cases d <;> exact asks
  rw [State.endTransferOf, if_pos hg, ends.eq hg, State.arbitrate_idle idle]
  cases c <;> rfl

theorem takeChannelStoreReadComplete_case (damaged : Option (List Byte)) (ha : (s.chan c).activity = .storeRead ended) :
    takeChannelStoreReadComplete c damaged s =
      (s.endTransferOf (Chan.requester c)).boundaryOr c
        (State.copyBlock c (damaged.getD (readStore s.store (s.chan c).setInUse.now))) := by
  simp only [takeChannelStoreReadComplete, ha]

theorem Channel.setInUse_now : x.setInUse.now = if x.second then x.set2.now else x.set1.now := by
  unfold Channel.setInUse
  split <;> rfl

/-! ### A block read back (R120) -/

/-- A channel once a block read back has been summed (R120). -/
def Channel.blockVerified (block : List Byte) (x : Channel) : Channel :=
  { x with sum := x.sum.addBytes block, block := x.block + 1, activity := .none }

section
variable {block : List Byte} (hb : (s.chan c).bay = some b) (hs : (s.chan c).stopping = false) (hn : u.noneReady)
  (hx : (s.chan c).state = .verify) (ha : (s.chan c).activity = .commandSent (.readBlock n) limit)
  (he : (s.chan c).entry = some e)
include hb hs hn hx ha he

theorem takeVerifyBlockReadEnd_more (more : (s.chan c).block < e.offset + e.length)
    (hg : (s.setLine b c (s.bay b).risen ((s.chan c).blockVerified block)).dueStalled c
      (.readBlock ((s.chan c).block + 1)) = u) : takeVerifyBlockReadEnd c block s = u := by
  have entry : (s.chan c).commandEnded.entry = some e := he
  simp only [takeVerifyBlockReadEnd, hx, ha]
  refine State.commandEnd_goesOn hb hs ?_ hn
  simp only [State.setLine_chan, State.setLine_setChan, entry]
  exact (if_pos more).trans hg

theorem takeVerifyBlockReadEnd_last (last : e.offset + e.length ≤ (s.chan c).block)
    (hg : (s.setLine b c (s.bay b).risen ((s.chan c).blockVerified block)).compareReadBack c e = u) :
    takeVerifyBlockReadEnd c block s = u := by
  have entry : (s.chan c).commandEnded.entry = some e := he
  simp only [takeVerifyBlockReadEnd, hx, ha]
  refine State.commandEnd_goesOn hb hs ?_ hn
  simp only [State.setLine_chan, State.setLine_setChan, entry]
  exact (if_neg (not_lt.mpr last)).trans hg

end

theorem State.setLine_compareReadBack_next (hk : s.cart e.title = some k) (agree : k.declared = x.sum)
    (more : x.index < x.titles.length) :
    (s.setLine b c y x).compareReadBack c e = (s.setLine b c y x).verifyTitle c (x.index + 1) := by
  simp only [State.compareReadBack, State.setLine_chan, State.setLine_cart, hk, Option.map_some, agree, if_true,
    if_pos more]

/-- After the last title's read-back the tag is written (R120, R121). -/
theorem State.setLine_compareReadBack_tag (hk : s.cart e.title = some k) (agree : k.declared = x.sum)
    (last : x.titles.length ≤ x.index) (hx : x.bay = some b) (hr : y.ready = true) (ht : x.tag = some tag) :
    (s.setLine b c y x).compareReadBack c e =
      s.setLine b c { y with state := .tagging, ready := false }
        { x with
          state := .tagging, index := 0
          activity := .commandSent (.writeTag tag) (s.now + s.bayStallTime) } := by
  have number : orZero x.tag = tag := by rw [ht, orZero]
  simp only [State.compareReadBack, State.setLine_chan, State.setLine_cart, hk, Option.map_some, agree, if_true,
    if_neg last.not_gt, State.setLine_setChan, number]
  rw [State.setLine_showCopy (x := { x with state := .tagging, index := 0 }) hx]
  exact State.setLine_dueStalled_sent (y := { y with state := .tagging }) (x := { x with state := .tagging, index := 0 })
    hx hr _

/-- A read-back whose sum differs, within the retry limit, begins the retry's erase (R120, R124). -/
theorem State.setLine_compareReadBack_retries (hk : s.cart e.title = some k) (differs : k.declared ≠ x.sum)
    (within : x.attempts < s.copyRetryLimit) (hx : x.bay = some b) (hr : y.ready = true) :
    (s.setLine b c y x).compareReadBack c e =
      s.setLine b c { y with state := .writing, ready := false }
        { x with state := .retryErase, activity := .commandSent .erase (s.now + s.eraseTimeLimit) } := by
  simp only [State.compareReadBack, State.setLine_chan, State.setLine_cart, hk, Option.map_some, Option.some.injEq,
    differs, if_false, State.writeFault, State.setLine_copyRetryLimit, within, if_true, State.setLine_setChan]
  rw [State.setLine_showCopy (x := { x with state := .retryErase, activity := .none }) hx,
    State.setLine_eraseTimeLimit]
  exact State.setLine_dueCommand_sent (y := { y with state := .writing })
    (x := { x with state := .retryErase, activity := .none }) hx hr _ _

end

/-- Settles O50: a store read's end by whether the grant is still held and whether the line is ready; a read-back's end by
the title's last block and the two sums. -/
theorem channelReadEnds : Obligations.ChannelReadEnds := by
  intro s c b hs hb ready x
  refine ⟨fun damaged ha hg => ?read, fun ha hg hw others hr => ?ends,
    fun n limit e k block hx ha he hk => ?verify⟩
  case read =>
    intro bytes y
    have stored : damaged.getD (readStore s.store (s.chan c).setInUse.now) = bytes := by
      rw [Channel.setInUse_now]
      cases damaged <;> rfl
    have taken := takeChannelStoreReadComplete_case damaged ha
    rw [stored, State.endTransferOf_other hg] at taken
    have line : s = s.setLine b c (s.bay b) (s.chan c) := State.setLine_self.symm
    refine ⟨fun hr => ?_, fun hr => ?_⟩
    · have copied := State.setLine_copyBlock_sent (s := s) (c := c) (x := s.chan c) (bytes := bytes) hb hr
      rw [← line] at copied
      exact exec_line rfl (taken.trans (State.boundaryOr_goesOn hs copied (State.setLine_noneReady ready))) rfl
    · have copied := State.setLine_copyBlock_waits (s := s) (c := c) (x := s.chan c) (bytes := bytes) hb hr
      rw [← line] at copied
      refine (exec_line rfl (taken.trans (State.boundaryOr_goesOn hs copied (State.setLine_noneReady ready))) rfl).trans ?_
      rw [State.setLine_sameBay]
      rfl
  case ends =>
    intro bytes
    have stored : readStore s.store (s.chan c).setInUse.now = bytes := by rw [Channel.setInUse_now]
    have taken := takeChannelStoreReadComplete_case none ha
    rw [Option.getD_none, stored, State.endTransferOf_frees hg hw others] at taken
    have free : State.setChan c { s.chan c with activity := .storeRead true } { s with grant := none } =
        State.setLine b c (s.bay b) { s.chan c with activity := .storeRead true } { s with grant := none } :=
      State.setLine_sameBay.symm
    have copied := State.setLine_copyBlock_sent (s := { s with grant := none }) (c := c) (y := s.bay b)
      (x := { s.chan c with activity := .storeRead true }) (bytes := bytes) hb hr
    rw [← free, Channel.blockRead_activity] at copied
    refine exec_word rfl (taken.trans ((State.boundaryOr_goesOn (by simpa using hs) copied
      (State.setLine_noneReady ready)).trans ?_)) (by simp) ?_
    · cases c <;> rfl
    · rw [State.setChan_bays]
      exact lampWord_setBay rfl
  case verify =>
    refine ⟨fun more => ?_, fun e2 last agree next => ?_, fun tag last agree final ht => ?_, fun last differs within => ?_⟩
    · exact exec_line rfl (takeVerifyBlockReadEnd_more hb hs (State.setLine_noneReady ready) hx ha he more
        (State.setLine_dueStalled_sent (y := (s.bay b).risen) (x := (s.chan c).blockVerified block) hb rfl _)) rfl
    · have more : (s.chan c).index < (s.chan c).titles.length := (List.getElem?_eq_some_iff.mp next).1
      have entry : Channel.entry { (s.chan c).blockVerified block with index := (s.chan c).index + 1 } = some e2 :=
        Channel.entry_nextTitle (x := (s.chan c).blockVerified block) next
      have compared := (State.setLine_compareReadBack_next (b := b) (c := c) (y := (s.bay b).risen)
        (x := (s.chan c).blockVerified block) hk agree more).trans
        (State.setLine_verifyTitle (s := s) (c := c) (y := (s.bay b).risen) (x := (s.chan c).blockVerified block) entry
          hb rfl)
      refine (exec_line rfl
        (takeVerifyBlockReadEnd_last hb hs (State.setLine_noneReady ready) hx ha he last compared) rfl).trans ?_
      rw [← hx]
      rfl
    · have compared := State.setLine_compareReadBack_tag (b := b) (c := c) (y := (s.bay b).risen)
        (x := (s.chan c).blockVerified block) hk agree final hb rfl ht
      exact exec_noUnit rfl
        (takeVerifyBlockReadEnd_last hb hs (State.setLine_noneReady ready) hx ha he last compared)
        State.setLine_writeQueue
    · have compared := State.setLine_compareReadBack_retries (b := b) (c := c) (y := (s.bay b).risen)
        (x := (s.chan c).blockVerified block) hk differs within hb rfl
      exact exec_noUnit rfl
        (takeVerifyBlockReadEnd_last hb hs (State.setLine_noneReady ready) hx ha he last compared)
        State.setLine_writeQueue

end Sys2Proof.Machine
end

section
/-! SUPPORT. A channel whose job finds a pool bay as it is released, and takes it again (R76, R100, R109, R126, R128). -/

namespace Sys2Proof.Machine

section
variable {s t : State} {tag need : Nat} {l : Loan} {b b2 : BayNo} {c : Chan} {j : Job} {x : Channel} {e : PlanEntry}
  {k : CartTitle} {f : Job → Job}

/-! ### The first fit (R76) -/

/-- The first fit is the least of the pool's bays that fit. -/
theorem State.firstFit_least (h : s.firstFit need = some b) :
    (s.bay b).inPool = true ∧ need ≤ (s.bay b).usable ∧
      ∀ x, (s.bay x).inPool = true → need ≤ (s.bay x).usable →
        (s.bay b).usable < (s.bay x).usable ∨ ((s.bay b).usable = (s.bay x).usable ∧ b.val ≤ x.val) := by
  let fits : Finset BayNo := Finset.univ.filter fun x => (s.bay x).inPool = true ∧ need ≤ (s.bay x).usable
  have mem (x : BayNo) : x ∈ fits ↔ (s.bay x).inPool = true ∧ need ≤ (s.bay x).usable := by simp [fits]
  have nonempty : fits.Nonempty := by
    by_contra empty
    rw [Finset.not_nonempty_iff_eq_empty, Finset.eq_empty_iff_forall_notMem] at empty
    have noFit : s.firstFit need = none := State.firstFit_none.mpr fun x pool => by
      by_contra large
      exact empty x ((mem x).mpr ⟨pool, not_lt.mp large⟩)
    rw [noFit] at h
    cases h
  obtain ⟨m, hm, least⟩ := Finset.exists_min_image fits (fun x => (s.bay x).usable * 16 + x.val) nonempty
  have order (x : BayNo) (pool : (s.bay x).inPool = true) (large : need ≤ (s.bay x).usable) :
      (s.bay m).usable < (s.bay x).usable ∨ ((s.bay m).usable = (s.bay x).usable ∧ m.val ≤ x.val) := by
    have le := least x ((mem x).mpr ⟨pool, large⟩)
    have hmx := m.isLt
    have hx := x.isLt
    omega
  have pool := (mem m).mp hm
  cases h.symm.trans (State.firstFit_some pool.1 pool.2 order)
  exact ⟨pool.1, pool.2, order⟩

/-- The first fit stays the first fit of a pool that has lost other bays. -/
theorem State.firstFit_some_mono (h : s.firstFit need = some b) (same : t.bay b = s.bay b)
    (pool : ∀ x, (t.bay x).inPool = true → t.bay x = s.bay x) : t.firstFit need = some b := by
  obtain ⟨inPool, fits, least⟩ := State.firstFit_least h
  refine State.firstFit_some (by rwa [same]) (by rwa [same]) fun x hx hfits => ?_
  have eq := pool x hx
  rw [eq] at hx hfits ⊢
  rw [same]
  exact least x hx hfits

theorem State.seekBay_fits (hl : s.loan tag = some l) (hf : s.firstFit l.need = some b) :
    s.seekBay tag = s.giveBay tag b := by
  simp [State.seekBay, hl, hf]

/-! ### A channel just cleared (R109) -/

/-- With the other channel busy, a channel just cleared is the IDLE one. -/
theorem State.idleChannel_cleared (others : ∀ d, d ≠ c → (s.chan d).state ≠ .idle) :
    (s.setChan c .cleared).idleChannel = some c := by
  cases c with
  | a => rfl
  | b =>
    have busy : s.chanA.state ≠ .idle := others .a (by decide)
    exact (if_neg busy).trans rfl

theorem State.setChan_self : s.setChan c (s.chan c) = s := by cases c <;> rfl

/-- The job given and taken owes nothing to what it was, but for its tag. -/
theorem State.givenTaken_updateJob (hf : ∀ j, (f j).tag = j.tag) :
    (s.updateJob tag f).givenTaken tag b c l e k = s.givenTaken tag b c l e k := by
  simp only [State.givenTaken, State.updateJob_setBay, State.updateJob_saveLoan, State.updateJob_setChan]
  refine (State.updateJob_updateJob hf).trans ?_
  simp only [hf]
  rfl

/-- Nor its channel to what it was. -/
theorem State.givenTaken_setChan : (s.setChan c x).givenTaken tag b c l e k = s.givenTaken tag b c l e k := by
  have now : (s.setChan c x).now + (s.setChan c x).bayStallTime = s.now + s.bayStallTime := by
    rw [State.setChan_now, State.bayStallTime_setChan]
  simp only [State.givenTaken, now, State.bay_setChan, State.setChan_setBay]
  rw [← State.saveLoan_setChan, ← State.saveLoan_setChan, State.setChan_setChan]

/-- A channel that releases a job without a bay, a pool bay fitting it and no other channel IDLE, takes it again at once
with that bay (R100, R109, R126). -/
theorem State.release_retaken {rest : List PlanEntry} (hb : x.bay = some b) (ht : x.tag = some tag)
    (hj : s.job tag = some j) (hh : j.holder = some c) (hn : j.bay = none) (he : (s.bay b).state ≠ .erasing)
    (hi : (s.bay b).state ≠ .identifying) (hl : s.loan tag = some l) (hp : l.state = .planned)
    (hf : s.firstFit l.need = some b2) (hr : (s.bay b2).ready = true) (others : ∀ d, d ≠ c → (s.chan d).state ≠ .idle)
    (htitles : l.titles = e :: rest) (hk : s.cart e.title = some k) (hs : k.state = .resident ∨ k.state = .retiring)
    (ready : ∀ i ∈ s.copyQueue, i.tag ≠ tag → i.holder ≠ none ∨ i.bay = none) (room : s.writeQueue.length < 127) :
    (State.release c (s.setChan c x)).handOver = s.givenTaken tag b2 c l e k := by
  have freed : ((s.setChan c x).setChan c .cleared).lineFreed b = s.setChan c .cleared := by
    rw [State.setChan_setChan, State.lineFreed_setChan_idle _ he hi]
  have job : (((s.setChan c x).setChan c .cleared).lineFreed b).job tag = some j := by
    rw [freed]
    simpa [State.job] using hj
  have loan : State.loan ((s.setChan c .cleared).updateJob tag (fun j => { j with holder := none })) tag = some l :=
    (State.loan_updateJob ..).trans ((State.loan_congr (by simp) tag).trans hl)
  have bay (y : BayNo) : State.bay ((s.setChan c .cleared).updateJob tag (fun j => { j with holder := none })) y = s.bay y :=
    (State.bay_updateJob ..).trans (State.bay_setChan ..)
  have cart : State.cart ((s.setChan c .cleared).updateJob tag (fun j => { j with holder := none })) e.title = some k :=
    (State.cart_congr (by simp) _).trans hk
  have fit : State.firstFit ((s.setChan c .cleared).updateJob tag (fun j => { j with holder := none })) l.need = some b2 :=
    (State.firstFit_updateJob ..).trans ((State.firstFit_congr (by simp) _).trans hf)
  have idle : State.idleChannel ((s.setChan c .cleared).updateJob tag (fun j => { j with holder := none })) = some c :=
    (State.idleChannel_updateJob ..).trans (State.idleChannel_cleared others)
  have mem : { j with holder := none } ∈
      (State.updateJob tag (fun j => { j with holder := none }) (s.setChan c .cleared)).copyQueue := by
    refine List.mem_of_find?_eq_some (p := fun i => i.tag == tag) ?_
    refine State.job_updateJob (f := fun j => { j with holder := none }) (fun _ => rfl) ?_
    simpa [State.job] using hj
  have tagged : j.tag = tag := by simpa using List.find?_some hj
  rw [State.release_bayless (by simpa using hb) (by simpa using ht) job hh hn, freed, State.seekBay_fits loan fit,
    State.giveBay_taken mem tagged rfl loan hp idle htitles cart hs (by rw [bay]; exact hr) ?_ (by simpa using room),
    State.givenTaken_updateJob (f := fun j => { j with holder := none }) (fun _ => rfl), State.givenTaken_setChan]
  intro i hi' ne
  rw [State.updateJob_copyQueue, State.setChan_copyQueue, List.mem_map] at hi'
  obtain ⟨y, hy, rfl⟩ := hi'
  by_cases hyt : y.tag = tag
  · simp [hyt] at ne
  · simpa [hyt] using ready y hy hyt

end

end Sys2Proof.Machine
end

section
/-! CERTIFICATES. Cartridge write faults: the retry's erase, its end, and the bay given up (R116, R123 to R125). -/

namespace Sys2Proof.Machine

section
variable {s u : State} {b b2 : BayNo} {c : Chan} {y : Bay} {x : Channel} {tag limit : Nat} {l : Loan} {j : Job}
  {cmd : CartCommand} {e : PlanEntry} {k : CartTitle} {f : Job → Job}

/-! ### The retry (R123, R124) -/

theorem State.setLine_writeFault_retries (within : x.attempts < s.copyRetryLimit) (hb : x.bay = some b) :
    (s.setLine b c y x).writeFault c =
      (s.setLine b c { y with state := .writing } { x with state := .retryErase, activity := .none }).dueCommand c .erase
        s.eraseTimeLimit := by
  simp only [State.writeFault, State.setLine_chan, State.setLine_copyRetryLimit, within, if_true, State.setLine_setChan,
    State.setLine_eraseTimeLimit]
  rw [State.setLine_showCopy (x := { x with state := .retryErase, activity := .none }) hb]

theorem State.writeFault_givesUp (past : s.copyRetryLimit ≤ (s.chan c).attempts) : s.writeFault c = s.giveUp c := by
  simp only [State.writeFault, if_neg past.not_gt]

theorem takeCartridgeStallExpiry_case (ha : (s.chan c).activity = .commandSent cmd limit) (hc : cmd ≠ .erase) :
    takeCartridgeStallExpiry c s = (s.expire limit).boundaryOr c (fun t => t.writeFault c) := by
  simp only [takeCartridgeStallExpiry, ha, Activity.command]

theorem takeRetryEraseLimitExpiry_case (hx : (s.chan c).state = .retryErase)
    (ha : (s.chan c).activity.command = some (.erase, limit)) :
    takeRetryEraseLimitExpiry c s = (s.expire limit).boundaryOr c (fun t => t.giveUp c) := by
  simp only [takeRetryEraseLimitExpiry, hx, ha]

theorem takeRetryEraseEnd_case (hx : (s.chan c).state = .retryErase) (ha : (s.chan c).activity = .commandSent .erase limit) :
    takeRetryEraseEnd c s = (s.readyRises c).boundaryOr c (fun t => t.restart c) := by
  simp only [takeRetryEraseEnd, hx, ha]

theorem State.setLine_updateJob : (s.setLine b c y x).updateJob tag f = (s.updateJob tag f).setLine b c y x := by
  cases c <;> rfl

/-- A channel at its job's first title, one attempt more counted (R124). -/
def Channel.restarted (x : Channel) : Channel := { x with attempts := x.attempts + 1, index := 1 }

/-- The job restarts from its first title's header block (R124). -/
theorem State.setLine_restart {rest : List PlanEntry} (ht : x.tag = some tag) (hl : x.titles = e :: rest)
    (hk : s.cart e.title = some k) (hs : k.state = .resident ∨ k.state = .retiring) (hb : x.bay = some b)
    (hr : y.ready = true) :
    (s.setLine b c y x).restart c =
      (s.updateJob tag (fun j => { j with attempts := j.attempts + 1 })).setLine b c { y with ready := false }
        { x.restarted with
          state := .header, set1 := (runSets k).1, set2 := (runSets k).2, second := false, sum := .zero
          block := e.offset
          activity := .commandSent (.writeBlock e.offset (headerBlock 1 e.title tag k)) (s.now + s.bayStallTime) } := by
  have entry : x.restarted.entry = some e := by simp [Channel.entry, Channel.restarted, hl]
  have started := State.setLine_titleStart (s := s.updateJob tag (fun j => { j with attempts := j.attempts + 1 }))
    (c := c) (y := y) (x := x.restarted) ht entry hk hs hb hr
  simp only [State.restart, State.setLine_chan, State.setLine_setChan, ht]
  rw [State.setLine_updateJob]
  exact (congrArg (State.titleStart c) (by rw [Channel.restarted, ← ht])).trans started

/-! ### The bay given up (R125) -/

theorem orZero_eq_getD (o : Option Nat) : orZero o = o.getD 0 := by cases o <;> rfl

/-- A bay given up, REJECTED, and its loan PLANNED without a bay (R125). -/
def State.lost (b : BayNo) (tag : Nat) (l : Loan) (s : State) : State :=
  (s.rejectBay b .writeFault).saveLoan tag { l with state := .planned, bay := none }

theorem State.lost_eq :
    s.lost b tag l =
      (State.notify .fp
        (noteFor .bayRejected b.val .writeFault
          [((s.bay b).identity.map Identity.serial).getD 0, ((s.bay b).identity.map Identity.wear).getD 0])
        (s.setBay b
          { s.bay b with
            state := .rejected, reject := some .writeFault, tag := none, eraseStarted := false
            command := none })).saveLoan tag { l with state := .planned, bay := none } := by
  rw [State.lost, State.rejectBay_eq, orZero_eq_getD, orZero_eq_getD]
  rfl

@[simp] theorem State.lost_copyQueue : (s.lost b tag l).copyQueue = s.copyQueue := by
  simp [State.lost, State.rejectBay_eq]

@[simp] theorem State.lost_units : (s.lost b tag l).writeQueue.length = s.writeQueue.length + 1 := by
  simp [State.lost, State.rejectBay_eq]

theorem State.lost_chan (d : Chan) : (s.lost b tag l).chan d = s.chan d := by
  cases d <;> simp [State.chan, State.lost, State.saveLoan, State.rejectBay_eq]

theorem State.lost_loan : (s.lost b tag l).loan tag = some { l with state := .planned, bay := none } :=
  State.loan_saveLoan ..

theorem State.lost_cart (n : Nat) : (s.lost b tag l).cart n = s.cart n :=
  State.cart_congr (by simp [State.lost, State.saveLoan, State.rejectBay_eq]) n

theorem State.lost_limit : (s.lost b tag l).now + (s.lost b tag l).rehomeLimit = s.now + s.rehomeLimit := by
  simp [State.rehomeLimit, State.setting, State.lost, State.saveLoan, State.rejectBay_eq]

theorem State.lost_bays : (s.lost b tag l).bays = (s.setBay b ((s.bay b).rejectedFor .writeFault)).bays := by
  simp [State.lost, State.saveLoan, State.rejectBay_eq]

theorem State.lost_bay : ((s.lost b tag l).bay b).state = .rejected := by
  rw [State.bay_congr State.lost_bays, State.bay_setBay_self]
  rfl

theorem State.lost_bay_other (h : b2 ≠ b) : (s.lost b tag l).bay b2 = s.bay b2 :=
  (State.bay_congr State.lost_bays b2).trans (State.bay_setBay_other s h _)

/-- The pool has lost no bay but the one given up, and gained none. -/
theorem State.lost_pool (z : BayNo) (hz : ((s.lost b tag l).bay z).inPool = true) : (s.lost b tag l).bay z = s.bay z := by
  by_cases h : z = b
  · subst h
    simp [Bay.inPool, State.lost_bay] at hz
  · exact State.lost_bay_other h

/-- The channel of a bay given up releases its job, which has no bay any more. -/
theorem State.giveUp_eq (hb : (s.chan c).bay = some b) (ht : (s.chan c).tag = some tag) (hl : s.loan tag = some l) :
    s.giveUp c =
      State.release c (State.setChan c (s.chan c) ((s.lost b tag l).updateJob tag (fun j => { j with bay := none }))) := by
  have loan : (s.rejectBay b .writeFault).loan tag = some l := hl
  have chan : State.chan ((s.lost b tag l).updateJob tag (fun j => { j with bay := none })) c = s.chan c :=
    (State.chan_updateJob ..).trans (State.lost_chan c)
  rw [← chan, State.setChan_self]
  simp only [State.giveUp, hb, ht, State.loseBay, loan]
  rfl

section
variable (hb : (s.chan c).bay = some b) (ht : (s.chan c).tag = some tag) (hl : s.loan tag = some l)
  (hj : s.job tag = some j) (hh : j.holder = some c)
include hb ht hl hj hh

/-- A bay given up with no pool bay that fits the job: its re-home timer starts (R101, R125). -/
theorem State.giveUp_rehomes (hf : s.firstFit l.need = none) :
    s.giveUp c =
      ((s.lost b tag l).setChan c .cleared).updateJob tag
        (fun j => { j with bay := none, holder := none, rehome := some (s.now + s.rehomeLimit) }) := by
  have loan := (State.loan_updateJob (s.lost b tag l) tag (fun j => { j with bay := none }) tag).trans State.lost_loan
  have noFit := (State.firstFit_updateJob tag (fun j => { j with bay := none }) (s.lost b tag l) l.need).trans
    (State.firstFit_none_mono hf State.lost_pool)
  have job : (s.lost b tag l).job tag = some j := hj
  have bay := State.lost_bay (s := s) (b := b) (tag := tag) (l := l)
  rw [State.giveUp_eq hb ht hl, State.release_rehomes hb ht
    (State.job_updateJob (f := fun j => { j with bay := none }) (fun _ => rfl) job) hh rfl
    (by rw [State.bay_updateJob, bay]; decide) (by rw [State.bay_updateJob, bay]; decide) loan noFit,
    State.updateJob_setChan, State.updateJob_updateJob (f := fun j => { j with bay := none }) (fun _ => rfl)]
  rw [← State.lost_limit (s := s) (b := b) (tag := tag) (l := l)]
  rfl

/-- A bay given up with a pool bay that fits the job and no other channel IDLE: the channel takes the job again at once
(R100, R109, R125). -/
theorem State.giveUp_retaken {rest : List PlanEntry} (hf : s.firstFit l.need = some b2) (hne : b2 ≠ b)
    (hr : (s.bay b2).ready = true) (others : ∀ d, d ≠ c → (s.chan d).state ≠ .idle) (htitles : l.titles = e :: rest)
    (hk : s.cart e.title = some k) (hs : k.state = .resident ∨ k.state = .retiring) (ready : s.noneReady)
    (room : s.writeQueue.length < 126) :
    (s.giveUp c).handOver =
      (s.lost b tag l).givenTaken tag b2 c { l with state := .planned, bay := none } e k := by
  have loan := (State.loan_updateJob (s.lost b tag l) tag (fun j => { j with bay := none }) tag).trans State.lost_loan
  have fit := (State.firstFit_updateJob tag (fun j => { j with bay := none }) (s.lost b tag l) l.need).trans
    (State.firstFit_some_mono hf (State.lost_bay_other hne) State.lost_pool)
  have cart : State.cart ((s.lost b tag l).updateJob tag (fun j => { j with bay := none })) e.title = some k :=
    (State.cart_congr (s := s.lost b tag l) (by simp) _).trans ((State.lost_cart _).trans hk)
  have job : (s.lost b tag l).job tag = some j := hj
  have bay := State.lost_bay (s := s) (b := b) (tag := tag) (l := l)
  rw [State.giveUp_eq hb ht hl, State.release_retaken (l := { l with state := .planned, bay := none }) hb ht
    (State.job_updateJob (f := fun j => { j with bay := none }) (fun _ => rfl) job) hh rfl
    (by rw [State.bay_updateJob, bay]; decide) (by rw [State.bay_updateJob, bay]; decide) loan rfl fit
    (by rw [State.bay_updateJob, State.lost_bay_other hne]; exact hr)
    (fun d hd => by rw [State.chan_updateJob, State.lost_chan]; exact others d hd) htitles
    cart hs ?_ ?_,
    State.givenTaken_updateJob (f := fun j => { j with bay := none }) (fun _ => rfl)]
  · intro i hi ne
    rw [State.updateJob_copyQueue, State.lost_copyQueue, List.mem_map] at hi
    obtain ⟨z, hz, rfl⟩ := hi
    by_cases hzt : z.tag = tag
    · simp [hzt] at ne
    · simpa [hzt] using ready z hz
  · rw [State.updateJob_writeQueue, State.lost_units]
    omega

end

end

/-- Settles O51: a fault within the retry limit and the retry erase's end by the channel's own steps; a bay given up by
whether a pool bay fits the job. -/
theorem channelFaults : Obligations.ChannelFaults := by
  intro s c b tag l j cmd limit hs hb ht hl hj hh ready room ha hr x now lost gaveUp moved
  have late : (s.expire limit).noneReady := ready
  have lost_late : (s.expire limit).lost b tag l = lost := State.lost_eq
  have command (hc : cmd = .erase) : (s.chan c).activity.command = some (.erase, limit) := by rw [ha, hc]; rfl
  have gave (hf : s.firstFit l.need = none) : (s.expire limit).giveUp c = gaveUp := by
    rw [State.giveUp_rehomes (s := s.expire limit) hb ht hl hj hh hf, lost_late,
      State.updateJob_base (s := s) (by simp [lost])]
    rfl
  have gaveNone : gaveUp.noneReady := by
    have base := State.noneReady_updateJob (s := lost.setChan c .cleared) (tag := tag)
      (f := fun k => { k with bay := none, holder := none, rehome := some (now + s.rehomeLimit) })
      (State.noneReady_congr ready (by simp [lost])) fun _ _ => .inr rfl
    rwa [State.updateJob_base (s := s) (by simp [lost])] at base
  have gaveUnits : gaveUp.writeQueue.length ≤ Config.maxUnits := by
    simpa [gaveUp, lost, Config.maxUnits] using room
  refine ⟨fun b2 e rest k hf hne hr2 place others titles hk hst _ => ?moved, fun hc within => ?retries,
    fun hc past hf => ?stall, fun hc hx hf => ?limit, fun e rest k hc hx titles hk hst => ?ends⟩
  case moved =>
    have retaken := State.giveUp_retaken (s := s.expire limit) hb ht hl hj hh hf hne hr2 others titles hk hst late place
    have state : ((s.expire limit).giveUp c).handOver = moved b2 e k := by
      rw [retaken, State.givenTaken, State.lost_bay_other hne, lost_late, State.updateJob_base (s := s) (by simp [lost])]
      rfl
    have boundary (go : State → State) (hg : go (s.expire limit) = (s.expire limit).giveUp c) :
        (s.expire limit).boundaryOr c go = moved b2 e k := by
      rw [State.boundaryOr, if_neg (by rw [show ((s.expire limit).chan c).stopping = false from hs]; decide), hg, state]
    have units : (moved b2 e k).writeQueue.length ≤ Config.maxUnits := by
      simp [moved, lost, Config.maxUnits]
      omega
    exact ⟨fun hc past => exec_room rfl
        ((takeCartridgeStallExpiry_case ha hc).trans (boundary _ (State.writeFault_givesUp past))) units,
      fun hc hx => exec_room rfl ((takeRetryEraseLimitExpiry_case hx (command hc)).trans (boundary _ rfl)) units⟩
  case retries =>
    have line : (s.expire limit).setLine b c (s.bay b) (s.chan c) = s.expire limit := State.setLine_self (s := s.expire limit)
    have faulted := State.setLine_writeFault_retries (s := s.expire limit) (c := c) (y := s.bay b) (x := s.chan c) within hb
    rw [line, State.setLine_dueCommand_waits (s := s.expire limit) (y := { s.bay b with state := .writing })
      (x := { s.chan c with state := .retryErase, activity := .none }) hb hr] at faulted
    exact exec_noUnit rfl ((takeCartridgeStallExpiry_case ha hc).trans
      (State.boundaryOr_goesOn hs faulted (State.setLine_noneReady late))) State.setLine_writeQueue
  case stall =>
    exact exec_room rfl ((takeCartridgeStallExpiry_case ha hc).trans
      (State.boundaryOr_goesOn hs ((State.writeFault_givesUp (s := s.expire limit) past).trans (gave hf)) gaveNone)) gaveUnits
  case limit =>
    exact exec_room rfl ((takeRetryEraseLimitExpiry_case hx (command hc)).trans
      (State.boundaryOr_goesOn hs (gave hf) gaveNone)) gaveUnits
  case ends =>
    have restarted := State.setLine_restart (s := s) (c := c) (y := (s.bay b).risen) (x := (s.chan c).commandEnded) ht
      titles hk hst hb rfl
    have same : ({ (s.bay b).risen with ready := false } : Bay) = s.bay b := by rw [← hr]; rfl
    rw [same] at restarted
    have none : (s.updateJob tag (fun j => { j with attempts := j.attempts + 1 })).noneReady :=
      State.noneReady_updateJob ready fun _ h => h
    subst hc
    refine exec_plain rfl ((takeRetryEraseEnd_case hx ha).trans
      ((State.commandEnd_goesOn hb hs restarted (State.setLine_noneReady none)).trans ?_)) (by simp) (by simp)
    have line (z : Channel) : (s.updateJob tag (fun j => { j with attempts := j.attempts + 1 })).setLine b c (s.bay b) z =
        (s.updateJob tag (fun j => { j with attempts := j.attempts + 1 })).setChan c z := State.setLine_sameBay
    rw [line, State.updateJob_setChan, State.updateJob_base (s := s) (by simp)]
    rfl

end Sys2Proof.Machine
end

section
/-! CERTIFICATES. The drain confirmation, and the end of what a stopping channel has in progress (R46, R102, R122, R126 to
R128). -/

namespace Sys2Proof.Machine

section
variable {s : State} {b b2 : BayNo} {c : Chan} {y : Bay} {x : Channel} {tag limit slot : Nat} {l : Loan} {j : Job}
  {i : Identity} {p : Patron} {e : PlanEntry} {k : CartTitle} {go : State → State}

/-! ### The drain confirmation (R46, R122) -/

theorem State.setLine_saveLoan : (s.setLine b c y x).saveLoan tag l = (s.saveLoan tag l).setLine b c y x := by
  cases c <;> rfl

/-- The part once a written loan has been recorded, its titles unpinned and its job out of the queue (R46, R122). -/
def State.drained (tag : Nat) (l : Loan) (serial : Nat) (s : State) : State :=
  ((s.saveLoan tag { l with state := .written, serial := some serial }).unpinAll l.titles).leaveQueue tag

theorem State.drained_units {serial : Nat} :
    (s.drained tag l serial).writeQueue.length ≤ s.writeQueue.length + 1 + l.titles.length := by
  rw [State.drained, State.leaveQueue_writeQueue, ← State.saveLoan_units tag { l with state := .written, serial := some serial }]
  exact State.unpinAll_units ..

theorem State.drained_noneReady {serial : Nat} (h : s.noneReady) : (s.drained tag l serial).noneReady := by
  intro j hj
  simp only [State.drained, State.leaveQueue_copyQueue, State.unpinAll_copyQueue, State.saveLoan_copyQueue,
    List.mem_filter] at hj
  exact h j hj.1

/-- The report of a drain confirmation on the line, the loan COPYING (R46, R122). -/
theorem State.setLine_reportDrain (ht : x.tag = some tag) (hb : x.bay = some b) (hl : s.loan tag = some l)
    (hst : l.state = .copying) (hi : y.identity = some i) (hr : s.reader l.patron = some (slot, p)) :
    (s.setLine b c y x).reportDrain c =
      ((s.drained tag l i.serial).notify .fp (note .cartridgeWritten tag [b.val, p.route.val, i.serial])).setLine b c
        { y with state := .written } x := by
  have reader : (s.setLine b c y x).reader l.patron = some (slot, p) := by
    cases c <;> exact hr
  have report : (s.setLine b c y x).reportDrain c = (s.setLine b c y x).written tag l b := by
    simp only [State.reportDrain, State.setLine_chan, ht, hb, State.setLine_loan, hl, hst, if_true]
  rw [report]
  simp only [State.written, State.setLine_bay, hi, reader, Option.map_some, orZero]
  rw [State.setLine_saveLoan, State.setLine_unpinAll, State.setLine_leaveQueue, State.setLine_bay, State.setLine_setBay,
    State.setLine_notify, ← hi]
  rfl

/-- The drained channel releases its job, which has left the queue (R122). -/
theorem State.setLine_release_drained (ht : x.tag = some tag) (hb : x.bay = some b) (hj : s.job tag = none)
    (hy : y.state = .written) : (s.setLine b c y x).release c = s.setLine b c y .cleared := by
  rw [State.release_gone (b := b) (tag := tag) (by simpa using hb) (by simpa using ht) (by simpa using hj),
    State.lineFreed_setChan_idle _ (by simp [hy]) (by simp [hy]), State.setLine_setChan]

theorem takeDrainConfirmation_case (hx : (s.chan c).state = .draining) (ha : (s.chan c).activity = .commandSent .drain limit) :
    takeDrainConfirmation c s = (s.readyRises c).boundaryOr c (fun t => (t.reportDrain c).release c) := by
  simp only [takeDrainConfirmation, hx, ha]

/-! ### A stopping channel's release (R126 to R128) -/

theorem State.boundaryOr_released (hs : (s.chan c).stopping = true) : s.boundaryOr c go = (s.release c).handOver := by
  simp only [State.boundaryOr, hs, if_true]

/-- A channel stopped for a cancel releases: the erase that waits for its line is sent (R127). -/
theorem State.setLine_release_erases (hb : x.bay = some b) (ht : x.tag = some tag) (hj : s.job tag = none)
    (he : y.state = .erasing) (hn : y.eraseStarted = false) (others : ∀ d, d ≠ c → (s.chan d).bay ≠ some b) :
    (s.setLine b c y x).release c =
      s.setLine b c
        { y with eraseStarted := true, command := some (.erase, s.now + s.eraseTimeLimit), ready := false }
        .cleared := by
  rw [State.release_gone (b := b) (tag := tag) (by simpa using hb) (by simpa using ht) (by simpa using hj),
    State.lineFreed_erase (fun d hd => by rw [State.setLine_chan_of_ne hd]; exact others d hd) (by simpa using he)
      (by simpa using hn)]
  simp

/-- The boundary of a channel stopped for a cancel, whatever its command (R126, R127). -/
theorem State.boundaryOr_erases (hs : (s.chan c).stopping = true) (hb : (s.chan c).bay = some b)
    (ht : (s.chan c).tag = some tag) (hj : s.job tag = none) (he : (s.bay b).state = .erasing)
    (hn : (s.bay b).eraseStarted = false) (others : ∀ d, d ≠ c → (s.chan d).bay ≠ some b) (ready : s.noneReady) :
    s.boundaryOr c go =
      s.setLine b c
        { s.bay b with eraseStarted := true, command := some (.erase, s.now + s.eraseTimeLimit), ready := false }
        .cleared := by
  have line : s.setLine b c (s.bay b) (s.chan c) = s := State.setLine_self
  have erases := State.setLine_release_erases (s := s) (c := c) (y := s.bay b) (x := s.chan c) hb ht hj he hn others
  rw [line] at erases
  exact State.boundaryOr_stops hs erases (State.setLine_noneReady ready)

/-- The same at the end of its command, ready risen. -/
theorem State.commandEnd_erases (hs : (s.chan c).stopping = true) (hb : (s.chan c).bay = some b)
    (ht : (s.chan c).tag = some tag) (hj : s.job tag = none) (he : (s.bay b).state = .erasing)
    (hn : (s.bay b).eraseStarted = false) (others : ∀ d, d ≠ c → (s.chan d).bay ≠ some b) (ready : s.noneReady) :
    (s.readyRises c).boundaryOr c go =
      s.setLine b c
        { s.bay b with eraseStarted := true, command := some (.erase, s.now + s.eraseTimeLimit), ready := false }
        .cleared := by
  rw [State.readyRises_eq hb, State.boundaryOr_erases (b := b) (tag := tag) (by rw [State.setLine_chan]; exact hs)
    (by rw [State.setLine_chan]; exact hb) (by rw [State.setLine_chan]; exact ht) (by simpa using hj)
    (by rw [State.setLine_bay]; exact he) (by rw [State.setLine_bay]; exact hn)
    (fun d hd => by rw [State.setLine_chan_of_ne hd]; exact others d hd) (State.setLine_noneReady ready)]
  simp only [State.setLine_setLine, State.setLine_bay, State.setLine_now, State.setLine_eraseTimeLimit]
  rfl

/-- The reading that waits for a line is sent when its channel is cleared (R92, R93). -/
theorem State.lineFreed_identity (hi : (s.bay b).state = .identifying) (hc : (s.bay b).command = none)
    (others : ∀ d, d ≠ c → (s.chan d).bay ≠ some b) :
    (s.setChan c .cleared).lineFreed b =
      (s.setBay b
        { s.bay b with command := some (.readIdentity, s.now + s.bayStallTime), ready := false }).setChan c .cleared := by
  have erase : (s.setChan c .cleared).sendErase b = s.setChan c .cleared := by simp [State.sendErase, hi]
  rw [State.lineFreed, erase,
    State.sendIdentity_sent ⟨by simpa using hi, by simpa using hc, State.lineHeld_cleared others⟩, State.setChan_setBay]
  simp

end

/-- Settles O52: the drain confirmation; and what a stopping channel's release leaves, by what becomes of its job and its
bay. -/
theorem drainAndStop : Obligations.DrainAndStop := by
  refine ⟨fun s c b tag limit l i slot p hb ht ready hx ha hs hl hst hi hr room => ?drain,
    fun s c b tag limit hb ht hs ready => ⟨fun hj he hn others => ?cancelled,
      fun ended damaged ha hg => ⟨fun hj he => ?gone, fun hj hi hc others => ?seated,
        fun j l hj hh hjb only hl hp he => ⟨fun hf => ?rehomes, fun b2 e rest k hf hr place busy titles hk hst => ?retaken⟩⟩⟩⟩
  case drain =>
    have drained := State.setLine_reportDrain (s := s) (c := c) (y := (s.bay b).risen) (x := (s.chan c).commandEnded) ht hb
      hl hst hi hr
    have gone : ((s.drained tag l i.serial).notify .fp (note .cartridgeWritten tag [b.val, p.route.val, i.serial])).job tag =
        none := by
      have left : (s.drained tag l i.serial).job tag = none := State.leaveQueue_job
      simpa only [State.job, State.notify_copyQueue] using left
    have ends := (congrArg (State.release c) drained).trans
      (State.setLine_release_drained (y := { (s.bay b).risen with state := .written }) (x := (s.chan c).commandEnded) ht hb
        gone rfl)
    have none : ((s.drained tag l i.serial).notify .fp
        (note .cartridgeWritten tag [b.val, p.route.val, i.serial])).noneReady :=
      State.noneReady_congr (State.drained_noneReady (tag := tag) (l := l) (serial := i.serial) ready) (by simp)
    have units := State.drained_units (s := s) (tag := tag) (l := l) (serial := i.serial)
    refine (exec_room rfl ((takeDrainConfirmation_case hx ha).trans
      (State.commandEnd_goesOn hb hs ends (State.setLine_noneReady none))) ?_).trans ?_
    · simp only [State.setLine_writeQueue, State.notify_writeQueue, Config.maxUnits]
      omega
    · rw [State.setLine, State.notify_setBay]
      rfl
  case cancelled =>
    intro released late
    have ends {go : State → State} : (s.readyRises c).boundaryOr c go = released s :=
      State.commandEnd_erases hs hb ht hj he hn others ready
    have expires {go : State → State} : (s.expire limit).boundaryOr c go = released late :=
      State.boundaryOr_erases (s := s.expire limit) hs hb ht hj he hn others ready
    have word (u : State) (hu : u.bays = s.bays) : lampWord (released u).bays = lampWord s.bays := by
      have same := State.bay_congr hu b
      rw [← hu, State.setChan_bays]
      exact lampWord_setBay (by rw [same])
    refine ⟨fun n bytes ha => ⟨fun hx => ?_, fun hx => ?_, fun hx => ?_⟩, fun n block ha hx => ?_, fun n ha hx => ?_,
      fun ha hx => ?_, fun ha hx => ?_, fun cmd ha hc => ?_, fun ha hx => ?_, fun ended damaged ha hg => ?_,
      fun damaged ha hg hw quiet => ?_⟩
    · exact exec_line rfl (by simp only [takeHeaderWriteEnd, hx, ha]; exact ends) rfl
    · exact exec_line rfl (by simp only [takeImageBlockWriteEnd, hx, ha]; exact ends) rfl
    · exact exec_line rfl (by simp only [takeIndexBlockWriteEnd, hx, ha]; exact ends) rfl
    · exact exec_line rfl (by simp only [takeVerifyBlockReadEnd, hx, ha]; exact ends) rfl
    · exact exec_line rfl (by simp only [takeWriteTagEnd, hx, ha]; exact ends) rfl
    · exact exec_line rfl ((takeDrainConfirmation_case hx ha).trans ends) rfl
    · exact exec_line rfl ((takeRetryEraseEnd_case hx ha).trans ends) rfl
    · exact exec_word rfl ((takeCartridgeStallExpiry_case ha hc).trans expires) (by simp [released, late]) (word late rfl)
    · have command : (s.chan c).activity.command = some (.erase, limit) := by rcases ha with ha | ha <;> rw [ha] <;> rfl
      exact exec_word rfl ((takeRetryEraseLimitExpiry_case hx command).trans expires) (by simp [released, late])
        (word late rfl)
    · have taken := takeChannelStoreReadComplete_case damaged ha
      rw [State.endTransferOf_other hg] at taken
      exact exec_line rfl (taken.trans (State.boundaryOr_erases hs hb ht hj he hn others ready)) rfl
    · have taken := takeChannelStoreReadComplete_case damaged ha
      rw [State.endTransferOf_frees hg hw quiet] at taken
      have stops := State.boundaryOr_erases (b := b) (c := c) (tag := tag)
        (s := State.setChan c { s.chan c with activity := .storeRead true } { s with grant := none })
        (go := State.copyBlock c (damaged.getD (readStore s.store (s.chan c).setInUse.now)))
        (by simpa using hs) (by simpa using hb) (by simpa using ht) (by simpa [State.job] using hj)
        (by rw [State.bay_setChan]; exact he) (by rw [State.bay_setChan]; exact hn)
        (fun d hd => by rw [State.chan_setChan_other _ hd]; exact others d hd) (State.noneReady_congr ready (by simp))
      simp only [State.setLine, State.bay_setChan, State.setChan_setBay, State.setChan_setChan, State.setChan_now,
        State.eraseTimeLimit_setChan] at stops
      exact exec_word rfl (taken.trans stops) (by simp [released]) (word _ rfl)
  case gone =>
    have taken := takeChannelStoreReadComplete_case damaged ha
    rw [State.endTransferOf_other hg] at taken
    have released := State.release_gone hb ht hj
    rw [State.lineFreed_setChan_idle _ (by simp [he]) (by simp [he])] at released
    exact exec_plain rfl (taken.trans (State.boundaryOr_stops hs released (State.noneReady_congr ready (by simp))))
      (by simp) (by simp)
  case seated =>
    have taken := takeChannelStoreReadComplete_case damaged ha
    rw [State.endTransferOf_other hg] at taken
    have released := State.release_gone hb ht hj
    rw [State.lineFreed_identity hi hc others] at released
    exact exec_line rfl (taken.trans (State.boundaryOr_stops hs released (State.setLine_noneReady ready))) rfl
  case rehomes =>
    have taken := takeChannelStoreReadComplete_case damaged ha
    rw [State.endTransferOf_other hg] at taken
    have released := State.release_rehomes (s := s) hb ht hj hh hjb (by simp [he]) (by simp [he]) hl hf
    rw [State.setChan_self, State.updateJob_base (s := s) (by simp)] at released
    refine exec_plain rfl (taken.trans (State.boundaryOr_stops hs released ?_)) (by simp) (by simp)
    intro i hi
    obtain ⟨z, hz, rfl⟩ := List.mem_map.mp hi
    by_cases hzt : z.tag = tag
    · cases only z hz hzt
      simp [hzt, hjb]
    · simpa [hzt] using ready z hz
  case retaken =>
    have taken := takeChannelStoreReadComplete_case damaged ha
    rw [State.endTransferOf_other hg, State.boundaryOr_released hs] at taken
    have retaken := State.release_retaken (s := s) hb ht hj hh hjb (by simp [he]) (by simp [he]) hl hp hf hr busy titles hk
      hst (fun i hi _ => ready i hi) place
    rw [State.setChan_self] at retaken
    rw [retaken, State.givenTaken, State.updateJob_base (s := s) (by simp)] at taken
    refine exec_room rfl taken ?_
    simp [Config.maxUnits]
    omega

end Sys2Proof.Machine
end
